-- ==== Sys2Proof/Word.lean ====
section
/-! DEFINITION. The data types of the CCU: bytes, 32-bit words, 16-bit slot ids, 16-byte blocks, 32-byte keys. -/

namespace Sys2Proof

/-- One byte. A byte string is written first byte first (R15). -/
abbrev Byte := BitVec 8

/-- A 32-bit accelerator register, bus address, wire word or count (R13, R74). All values are unsigned (R14). -/
abbrev Word := BitVec 32

/-- A key slot id or destination slot id: 16 bits (R13, R23, R24). -/
abbrev SlotId := BitVec 16

/-- A 16-byte string: an AES block or an AES-128 key, byte 0 first (R15, R50). -/
abbrev Block := Vector Byte 16

/-- A 32-byte string: the key material area, the key-input region, or an AES-256 key (R21, R40). -/
abbrev Key256 := Vector Byte 32

/-- `0^16` (R15). -/
def zeroBlock : Block := Vector.replicate 16 0#8

/-- `0^32` (R15). -/
def zeroKey : Key256 := Vector.replicate 32 0#8

end Sys2Proof
end

