-- ==== Sys2Proof/Machine/Cells.lean ====
section
/-! DEFINITION. Sparse maps keyed by a number, as sorted lists of pairs: the data RAM and the accelerator's slot maps. -/

namespace Sys2Proof.Machine

/-- The value listed under key `a`, if any. -/
def cellsLookup {β : Type} : List (Nat × β) → Nat → Option β
  | [], _ => none
  | (k, v) :: rest, a => if a = k then some v else cellsLookup rest a

/-- List the value `b` under key `a`, replacing what stood there and keeping the keys rising. -/
def cellsInsert {β : Type} : List (Nat × β) → Nat → β → List (Nat × β)
  | [], a, b => [(a, b)]
  | (k, v) :: rest, a, b =>
    if a < k then (a, b) :: (k, v) :: rest
    else if a = k then (a, b) :: rest
    else (k, v) :: cellsInsert rest a b

/-- List nothing under key `a`. -/
def cellsErase {β : Type} (m : List (Nat × β)) (a : Nat) : List (Nat × β) := m.filter (fun c => c.1 != a)

/-- The canonical form: keys strictly rising and below `bound`. -/
abbrev cellsWf {β : Type} (bound : Nat) (m : List (Nat × β)) : Prop :=
  m.Pairwise (fun x y => x.1 < y.1) ∧ ∀ c ∈ m, c.1 < bound

/-- CCU data RAM (R44(c)): the bytes written so far, by 32-bit byte address. An address that is not listed holds no value
written by the machine. -/
abbrev Memory := List Host.Cell

/-- The canonical form of the data RAM: rising addresses inside the 32-bit space. No entry can equal what an unlisted address
holds, since that is no stored value at all. -/
abbrev Memory.wf (m : Memory) : Prop := cellsWf (2 ^ 32) m

end Sys2Proof.Machine
end

