-- ==== Sys2Proof/Syntax.lean ====
section
/-! DEFINITION. The command set: the twelve commands of spec/opcode_table.json and their operands. -/

namespace Sys2Proof

/-- The key length: `L128` or `L256` (R22). -/
inductive KeyLength where
  | l128
  | l256
  deriving DecidableEq, Repr, Inhabited

/-- The two calibration loops (R145). -/
inductive CalibKind where
  | nop
  | div
  deriving DecidableEq, Repr, Inhabited

/-- The names of the twelve commands (R64), without operands. -/
inductive Command where
  | loadKey128
  | loadKey256
  | selectKeyslot
  | encryptHw
  | encryptSw
  | reset
  | memRead
  | memWrite
  | memRead32
  | call
  | calibNop
  | calibDiv
  deriving DecidableEq, Repr, Inhabited

/-- A command with its operands, one constructor per row of the opcode table (R68 to R75). -/
inductive Instr where
  /-- load-key-128 `K` (R68, R94). -/
  | loadKey128 (k : Block)
  /-- load-key-256 `K` (R69, R95). -/
  | loadKey256 (k : Key256)
  /-- select-keyslot `slot dest lenbyte` (R70, R71, R96). -/
  | selectKeyslot (slot dest : SlotId) (lenByte : Byte)
  /-- encrypt-hw `P` (R72, R98). -/
  | encryptHw (p : Block)
  /-- encrypt-sw `P` (R72, R128). -/
  | encryptSw (p : Block)
  /-- reset (R73, R97). -/
  | reset
  /-- mem-read `addr length` (R75, R89). -/
  | memRead (addr length : Word)
  /-- mem-write `addr word` (R75, R89). -/
  | memWrite (addr word : Word)
  /-- mem-read32 `addr` (R75, R89). -/
  | memRead32 (addr : Word)
  /-- call `addr` (R75, R89). -/
  | call (addr : Word)
  /-- calib-nop `n` (R74, R147). -/
  | calibNop (n : Word)
  /-- calib-div `n` (R74, R148). -/
  | calibDiv (n : Word)
  deriving DecidableEq, Repr

/-- The command an instruction is. -/
def Instr.command : Instr → Command
  | .loadKey128 _ => .loadKey128
  | .loadKey256 _ => .loadKey256
  | .selectKeyslot _ _ _ => .selectKeyslot
  | .encryptHw _ => .encryptHw
  | .encryptSw _ => .encryptSw
  | .reset => .reset
  | .memRead _ _ => .memRead
  | .memWrite _ _ => .memWrite
  | .memRead32 _ => .memRead32
  | .call _ => .call
  | .calibNop _ => .calibNop
  | .calibDiv _ => .calibDiv

end Sys2Proof
end

