-- ==== Sys2Proof/Config.lean ====
section
/-! DEFINITION. The implementation parameters of R12 and their constraints, the fixture TF of 95_test_vectors.md, and the
uninterpreted constants: the hardware's own parameters and the values the spec leaves free. -/

namespace Sys2Proof

/-- The named parameters of R12, as plain data. No rule assumes a value for any of them. -/
structure Params where
  /-- `OPC_LOAD_KEY_128` and so on: the opcode byte of each command. -/
  opcLoadKey128 : Byte
  opcLoadKey256 : Byte
  opcSelectKeyslot : Byte
  opcEncryptHw : Byte
  opcEncryptSw : Byte
  opcReset : Byte
  opcMemRead : Byte
  opcMemWrite : Byte
  opcMemRead32 : Byte
  opcCall : Byte
  opcCalibNop : Byte
  opcCalibDiv : Byte
  /-- `STATUS_OK`: the status byte of every reply (R66). -/
  statusOk : Byte
  /-- `ACK_NO_DATA`: a command with no payload sends a status-only reply (R66). -/
  ackNoData : Bool
  /-- `ACC_BASE` and the register offsets (R45). -/
  accBase : Word
  offSrc : Word
  offDst : Word
  offLen : Word
  offParam : Word
  offKeyslot : Word
  offCmd : Word
  offStatus : Word
  /-- `KEY_REGION`: the 32-byte key-input region (R40). -/
  keyRegion : Word
  /-- `START_VALUE` (R38). -/
  startValue : Word
  /-- `P_BASE`, `P_HOSTKEY`, `P_REDIRECT`: the flags of the parameter bitfield (R36). -/
  pBase : Word
  pHostkey : Word
  pRedirect : Word
  /-- `KSIZE_SHIFT`, `KSIZE_128`, `KSIZE_256`: the key-size field and its codes (R36). -/
  ksizeShift : Fin 31
  ksize128 : BitVec 2
  ksize256 : BitVec 2
  /-- `BUF_ADDR`: the block buffer (R30). -/
  bufAddr : Word
  /-- `SLOT_KEY` at size L128 and at size L256: the accelerator's resident keys, as sorted lists (R42). -/
  slotKeys128 : List (Nat × Block)
  slotKeys256 : List (Nat × Key256)
  /-- `TRIG_PIN`: an opaque pin id; no rule depends on it (R127). -/
  trigPin : Nat
  /-- `TARGET_LE`: byte order of the CCU's bus; no in-scope rule depends on it (R48). -/
  targetLe : Bool
  /-- `NOP_BODY`, `DIV_BODY`: instructions per loop iteration, timing only (R145). -/
  nopBody : Nat
  divBody : Nat
  deriving DecidableEq, Repr, Inhabited

/-- The opcode byte of a command (R64). -/
def Params.opcode (c : Params) : Command → Byte
  | .loadKey128 => c.opcLoadKey128
  | .loadKey256 => c.opcLoadKey256
  | .selectKeyslot => c.opcSelectKeyslot
  | .encryptHw => c.opcEncryptHw
  | .encryptSw => c.opcEncryptSw
  | .reset => c.opcReset
  | .memRead => c.opcMemRead
  | .memWrite => c.opcMemWrite
  | .memRead32 => c.opcMemRead32
  | .call => c.opcCall
  | .calibNop => c.opcCalibNop
  | .calibDiv => c.opcCalibDiv

/-- All twelve commands, in the order of R64. -/
def allCommands : List Command :=
  [.loadKey128, .loadKey256, .selectKeyslot, .encryptHw, .encryptSw, .reset,
   .memRead, .memWrite, .memRead32, .call, .calibNop, .calibDiv]

/-- The seven register offsets, in the order of R45. -/
def Params.offsets (c : Params) : List Word :=
  [c.offSrc, c.offDst, c.offLen, c.offParam, c.offKeyslot, c.offCmd, c.offStatus]

/-- A 4-byte aligned address (R51). -/
def aligned4 (a : Word) : Bool := a &&& 3#32 == 0#32

/-- A mask with exactly one bit set. -/
def oneBit (m : Word) : Bool := (List.range 32).any fun i => m == BitVec.twoPow 32 i

/-- The mask of the two bits `[KSIZE_SHIFT+1:KSIZE_SHIFT]`. -/
def Params.ksizeMask (c : Params) : Word := 3#32 <<< c.ksizeShift.val

/-- The `n` bytes from `a` and the `m` bytes from `b` have none in common. -/
def apart (a n b m : Nat) : Bool := decide (a + n ≤ b) || decide (b + m ≤ a)

/-- Opcode bytes pairwise distinct (R12). -/
abbrev Params.opcodesDistinct (c : Params) : Prop := (allCommands.map c.opcode).Nodup

/-- `ACC_BASE` and the offsets are aligned, the offsets pairwise distinct (R12). -/
abbrev Params.registersOk (c : Params) : Prop :=
  aligned4 c.accBase ∧ c.offsets.all aligned4 ∧ c.offsets.Nodup

/-- The key-input region is aligned, inside the 32-bit space (DEDUCED, log 2), and overlaps no register (R12, R46). -/
abbrev Params.keyRegionOk (c : Params) : Prop :=
  aligned4 c.keyRegion ∧ c.keyRegion.toNat + 32 ≤ 2 ^ 32 ∧
    c.offsets.all fun o => apart c.keyRegion.toNat 32 (c.accBase + o).toNat 4

/-- The three flags are single bits, pairwise disjoint, and the key-size field avoids them; the two codes differ (R12). -/
abbrev Params.paramFieldsOk (c : Params) : Prop :=
  oneBit c.pBase ∧ oneBit c.pHostkey ∧ oneBit c.pRedirect ∧
    c.pBase &&& c.pHostkey = 0#32 ∧ c.pBase &&& c.pRedirect = 0#32 ∧ c.pHostkey &&& c.pRedirect = 0#32 ∧
    c.ksizeMask &&& (c.pBase ||| c.pHostkey ||| c.pRedirect) = 0#32 ∧ c.ksize128 ≠ c.ksize256

/-- The block buffer is aligned, inside the 32-bit space (DEDUCED, log 2), and overlaps neither the register block nor the
key-input region (R12, R46). -/
abbrev Params.bufOk (c : Params) : Prop :=
  aligned4 c.bufAddr ∧ c.bufAddr.toNat + 16 ≤ 2 ^ 32 ∧
    apart c.bufAddr.toNat 16 c.keyRegion.toNat 32 ∧
    c.offsets.all fun o => apart c.bufAddr.toNat 16 (c.accBase + o).toNat 4

/-- The loop bodies hold at least one instruction (R12). -/
abbrev Params.bodiesOk (c : Params) : Prop := 1 ≤ c.nopBody ∧ 1 ≤ c.divBody

/-- The two lists that write out `SLOT_KEY` are in canonical form, their keys 16-bit slot ids. -/
abbrev Params.slotKeysOk (c : Params) : Prop :=
  Machine.cellsWf (2 ^ 16) c.slotKeys128 ∧ Machine.cellsWf (2 ^ 16) c.slotKeys256

/-- The constraints of R12, all of them. -/
abbrev Params.Valid (c : Params) : Prop :=
  c.opcodesDistinct ∧ c.registersOk ∧ c.keyRegionOk ∧ c.paramFieldsOk ∧ c.bufOk ∧ c.bodiesOk ∧ c.slotKeysOk

/-- The key `SLOT_KEY(0x0002, KSIZE_128)` of fixture TF. -/
def fixtureSlotKey : Block :=
  #v[0x2b, 0x7e, 0x15, 0x16, 0x28, 0xae, 0xd2, 0xa6, 0xab, 0xf7, 0x15, 0x88, 0x09, 0xcf, 0x4f, 0x3c]

/-- Fixture TF of 95_test_vectors.md section 0: a test fixture, not a claim about the hardware. -/
def Params.fixture : Params where
  opcLoadKey128 := 0xa0
  opcLoadKey256 := 0xa1
  opcSelectKeyslot := 0xa2
  opcEncryptHw := 0xa3
  opcEncryptSw := 0xa4
  opcReset := 0xa5
  opcMemRead := 0xa6
  opcMemWrite := 0xa7
  opcMemRead32 := 0xa8
  opcCall := 0xa9
  opcCalibNop := 0xaa
  opcCalibDiv := 0xab
  statusOk := 0x5a
  ackNoData := true
  accBase := 0x10000000
  offSrc := 0x00
  offDst := 0x04
  offLen := 0x08
  offParam := 0x0c
  offKeyslot := 0x10
  offCmd := 0x14
  offStatus := 0x18
  keyRegion := 0x10000100
  startValue := 1
  pBase := 0x01
  pHostkey := 0x08
  pRedirect := 0x10
  ksizeShift := 1
  ksize128 := 0
  ksize256 := 2
  bufAddr := 0x20000000
  slotKeys128 := [(2, fixtureSlotKey)]
  slotKeys256 := []
  trigPin := 0
  targetLe := true
  nopBody := 1
  divBody := 1

/-- An uninterpreted choice of parameters: nothing in Lean can evaluate it (DESIGN CHOICE, log 1). -/
opaque Config.rawParams : Params

/-- The parameters of the machine that `State.reset` describes: any choice that meets the constraints of R12. Where the
uninterpreted choice meets them it is that choice; `ACK_NO_DATA` and `TARGET_LE` are as the spec decides them (R12, R48, R66). -/
def Config.params : Params :=
  let c : Params := { Config.rawParams with ackNoData := true, targetLe := true }
  if c.Valid then c else Params.fixture

/-- Power-on contents of the accelerator registers SRC, DST, LEN, PARAM, KEYSLOT, CMD (arguments 0 to 5): unspecified,
a free value (R33 to R38, R170; log 4). -/
opaque Config.powerOnReg : Nat → Word

/-- Power-on content of the key-input region: unspecified, a free value (R40, R170; log 4). -/
opaque Config.powerOnKeyIn : Key256

/-- Power-on content of a byte of data RAM: unspecified, a free value (R30, R170; log 4). -/
opaque Config.powerOnRam : Nat → Byte

/-- Free value: how many CCU steps pass before the accelerator's completion step; `none` where it never completes
(R115, R117; log 6). -/
opaque Config.freeLatency : Nat → Option Nat

/-- Free value: bits 31:1 of a STATUS read (R113; log 5). -/
opaque Config.freeStatusBits : Nat → BitVec 31

/-- Free value: 16 bytes the model does not fix (R115, R128; log 5). -/
opaque Config.freeBlock : Nat → Block

end Sys2Proof
end

