-- ==== Sys2Proof/WellFormed.lean ====
section
/-! DEFINITION. Which instructions the assembler syntax of R76 can write. Block and key lengths and operand widths are in the
operand types; what is left is the length byte of select-keyslot. -/

namespace Sys2Proof

/-- `len=<16|32>` of R76: the two length bytes the spec gives a meaning (R71). -/
def lenByteDefined (b : Byte) : Bool := b == 0x10#8 || b == 0x20#8

/-- A well-formed instruction. A select-keyslot with another length byte still decodes; its meaning refuses it (R96). -/
def WellFormed : Instr → Bool
  | .selectKeyslot _ _ lenByte => lenByteDefined lenByte
  | .loadKey128 _ => true
  | .loadKey256 _ => true
  | .encryptHw _ => true
  | .encryptSw _ => true
  | .reset => true
  | .memRead _ _ => true
  | .memWrite _ _ => true
  | .memRead32 _ => true
  | .call _ => true
  | .calibNop _ => true
  | .calibDiv _ => true

end Sys2Proof
end

