-- ==== Sys2Proof/Decode.lean ====
section
/-! DEFINITION. Command frames: the decoder (R63 to R75), total on any bytes, and the encoder written from the same table. -/

namespace Sys2Proof

/-- `L(op)`: how many parameter bytes follow the opcode byte (R64). -/
def Command.paramLength : Command → Nat
  | .loadKey128 => 16
  | .loadKey256 => 32
  | .selectKeyslot => 5
  | .encryptHw => 16
  | .encryptSw => 16
  | .reset => 0
  | .memRead => 8
  | .memWrite => 8
  | .memRead32 => 4
  | .call => 4
  | .calibNop => 4
  | .calibDiv => 4

/-- Length of a command's reply payload, for the commands in scope (R64); 0 for the refused debug commands, which send none. -/
def Command.payloadLength : Command → Nat
  | .encryptHw => 16
  | .encryptSw => 16
  | .loadKey128 => 0
  | .loadKey256 => 0
  | .selectKeyslot => 0
  | .reset => 0
  | .memRead => 0
  | .memWrite => 0
  | .memRead32 => 0
  | .call => 0
  | .calibNop => 0
  | .calibDiv => 0

/-- `be16(x, y) = (x << 8) | y` (R15). -/
def be16 (x y : Byte) : BitVec 16 := (x.setWidth 16 <<< 8) ||| y.setWidth 16

/-- `be32(w, x, y, z) = (w << 24) | (x << 16) | (y << 8) | z` (R15). -/
def be32 (w x y z : Byte) : Word :=
  (w.setWidth 32 <<< 24) ||| (x.setWidth 32 <<< 16) ||| (y.setWidth 32 <<< 8) ||| z.setWidth 32

/-- Parameter byte `p[i]` of a frame. -/
def paramByte (p : List Byte) (i : Nat) : Byte := p.getD i 0#8

/-- `be16(p[i], p[i+1])`. -/
def param16 (p : List Byte) (i : Nat) : BitVec 16 := be16 (paramByte p i) (paramByte p (i + 1))

/-- `be32(p[i], p[i+1], p[i+2], p[i+3])`. -/
def param32 (p : List Byte) (i : Nat) : Word :=
  be32 (paramByte p i) (paramByte p (i + 1)) (paramByte p (i + 2)) (paramByte p (i + 3))

/-- `p[0..15]` (R68, R72). -/
def paramBlock (p : List Byte) : Block := Vector.ofFn fun i => paramByte p i.val

/-- `p[0..31]` (R69). -/
def paramKey256 (p : List Byte) : Key256 := Vector.ofFn fun i => paramByte p i.val

/-- The command with its operands taken from the parameter bytes (R68 to R75). -/
def Command.build (p : List Byte) : Command → Instr
  | .loadKey128 => .loadKey128 (paramBlock p)
  | .loadKey256 => .loadKey256 (paramKey256 p)
  | .selectKeyslot => .selectKeyslot (param16 p 0) (param16 p 2) (paramByte p 4)
  | .encryptHw => .encryptHw (paramBlock p)
  | .encryptSw => .encryptSw (paramBlock p)
  | .reset => .reset
  | .memRead => .memRead (param32 p 0) (param32 p 4)
  | .memWrite => .memWrite (param32 p 0) (param32 p 4)
  | .memRead32 => .memRead32 (param32 p 0)
  | .call => .call (param32 p 0)
  | .calibNop => .calibNop (param32 p 0)
  | .calibDiv => .calibDiv (param32 p 0)

/-- The command whose opcode byte is `op`, by comparison with the twelve opcode parameters (R86). -/
def Params.commandOf (c : Params) (op : Byte) : Option Command := allCommands.find? fun cmd => c.opcode cmd == op

/-- What the decoder says of the bytes on the wire. -/
inductive DecodeResult where
  /-- A whole frame, and the bytes after it. -/
  | frame (i : Instr) (rest : List Byte)
  /-- The bytes do not yet hold a whole frame: the service loop blocks (R65). -/
  | incomplete
  /-- The opcode byte names no command (R67). -/
  | unknownOpcode (op : Byte)
  deriving DecidableEq, Repr

/-- Decode the frame at the head of a byte stream: read `op`, look up `L(op)`, read `L(op)` more bytes (R65). -/
def decode (c : Params) : List Byte → DecodeResult
  | [] => .incomplete
  | op :: rest =>
    match c.commandOf op with
    | none => .unknownOpcode op
    | some cmd =>
      if rest.length < cmd.paramLength then .incomplete
      else .frame (cmd.build (rest.take cmd.paramLength)) (rest.drop cmd.paramLength)

/-- The two bytes of a 16-bit field, most significant first (R47). -/
def bytes16 (v : BitVec 16) : List Byte := [(v >>> 8).setWidth 8, v.setWidth 8]

/-- The four bytes of a 32-bit field, most significant first (R47). -/
def bytes32 (v : Word) : List Byte :=
  [(v >>> 24).setWidth 8, (v >>> 16).setWidth 8, (v >>> 8).setWidth 8, v.setWidth 8]

/-- The parameter bytes of an instruction (R68 to R75). -/
def Instr.paramBytes : Instr → List Byte
  | .loadKey128 k => k.toList
  | .loadKey256 k => k.toList
  | .selectKeyslot slot dest lenByte => bytes16 slot ++ bytes16 dest ++ [lenByte]
  | .encryptHw p => p.toList
  | .encryptSw p => p.toList
  | .reset => []
  | .memRead addr length => bytes32 addr ++ bytes32 length
  | .memWrite addr word => bytes32 addr ++ bytes32 word
  | .memRead32 addr => bytes32 addr
  | .call addr => bytes32 addr
  | .calibNop n => bytes32 n
  | .calibDiv n => bytes32 n

/-- The frame of an instruction: `op ++ p` (R63, R76). -/
def encode (c : Params) (i : Instr) : List Byte := c.opcode i.command :: i.paramBytes

/-- The longest frame: load-key-256, an opcode byte and 32 parameter bytes (R64). -/
def maxFrameBytes : Nat := 33

/-- The first `n` bytes of a number whose bits 7 to 0 are the first byte. -/
def bytesOfNat (n w : Nat) : List Byte := (List.range n).map fun i => BitVec.ofNat 8 (w >>> (8 * i))

/-- The bytes of an instruction whose first `nbits` bits are those of `w`, all later bits 0, up to the longest frame. -/
def tableWordBytes (nbits w : Nat) : List Byte := bytesOfNat maxFrameBytes (w % 2 ^ nbits)

/-- How many bytes the frame beginning with these bytes has: one where the opcode byte names no command. -/
def frameLength (c : Params) : List Byte → Nat
  | [] => 0
  | op :: _ =>
    match c.commandOf op with
    | none => 1
    | some cmd => cmd.paramLength + 1

/-- The instruction the decoder reads from an instruction word numbered as the opcode table numbers it, under the
machine's own parameters. -/
def decodeTableWord (nbits w : Nat) : Option Instr :=
  match decode Config.params (tableWordBytes nbits w) with
  | .frame i _ => some i
  | .incomplete => none
  | .unknownOpcode _ => none

end Sys2Proof
end

