-- ==== Sys2Proof/Machine/Aes.lean ====
section
/-! DEFINITION. The AES block cipher of 44_sw_aes.md sections 2 to 4 (R131 to R144), which the spec takes from FIPS-197. -/

namespace Sys2Proof.Machine

/-- `xtime(a) = ((a << 1) ^ (a[7] ? 0x11B : 0)) & 0xFF` (R131). -/
def xtime (a : Byte) : Byte :=
  ((a.setWidth 9 <<< 1) ^^^ (if a.getLsbD 7 then 0x11B#9 else 0#9)).setWidth 8

/-- `gmul(a, b)`: the sum of `xtime^i(a)` over the bits `i` set in `b` (R131). -/
def gmul (a b : Byte) : Byte :=
  (List.range 8).foldl (fun acc i => if b.getLsbD i then acc ^^^ Nat.repeat xtime i a else acc) 0#8

/-- The affine transform of R132, applied there to the multiplicative inverse. -/
def affine (b : Byte) : Byte :=
  b ^^^ b.rotateLeft 1 ^^^ b.rotateLeft 2 ^^^ b.rotateLeft 3 ^^^ b.rotateLeft 4 ^^^ 0x63#8

/-- Rows 0x to 7x of the table of R132. -/
def sboxLow : List (List Byte) :=
  [[0x63, 0x7c, 0x77, 0x7b, 0xf2, 0x6b, 0x6f, 0xc5, 0x30, 0x01, 0x67, 0x2b, 0xfe, 0xd7, 0xab, 0x76],
   [0xca, 0x82, 0xc9, 0x7d, 0xfa, 0x59, 0x47, 0xf0, 0xad, 0xd4, 0xa2, 0xaf, 0x9c, 0xa4, 0x72, 0xc0],
   [0xb7, 0xfd, 0x93, 0x26, 0x36, 0x3f, 0xf7, 0xcc, 0x34, 0xa5, 0xe5, 0xf1, 0x71, 0xd8, 0x31, 0x15],
   [0x04, 0xc7, 0x23, 0xc3, 0x18, 0x96, 0x05, 0x9a, 0x07, 0x12, 0x80, 0xe2, 0xeb, 0x27, 0xb2, 0x75],
   [0x09, 0x83, 0x2c, 0x1a, 0x1b, 0x6e, 0x5a, 0xa0, 0x52, 0x3b, 0xd6, 0xb3, 0x29, 0xe3, 0x2f, 0x84],
   [0x53, 0xd1, 0x00, 0xed, 0x20, 0xfc, 0xb1, 0x5b, 0x6a, 0xcb, 0xbe, 0x39, 0x4a, 0x4c, 0x58, 0xcf],
   [0xd0, 0xef, 0xaa, 0xfb, 0x43, 0x4d, 0x33, 0x85, 0x45, 0xf9, 0x02, 0x7f, 0x50, 0x3c, 0x9f, 0xa8],
   [0x51, 0xa3, 0x40, 0x8f, 0x92, 0x9d, 0x38, 0xf5, 0xbc, 0xb6, 0xda, 0x21, 0x10, 0xff, 0xf3, 0xd2]]

/-- Rows 8x to Fx of the table of R132. -/
def sboxHigh : List (List Byte) :=
  [[0xcd, 0x0c, 0x13, 0xec, 0x5f, 0x97, 0x44, 0x17, 0xc4, 0xa7, 0x7e, 0x3d, 0x64, 0x5d, 0x19, 0x73],
   [0x60, 0x81, 0x4f, 0xdc, 0x22, 0x2a, 0x90, 0x88, 0x46, 0xee, 0xb8, 0x14, 0xde, 0x5e, 0x0b, 0xdb],
   [0xe0, 0x32, 0x3a, 0x0a, 0x49, 0x06, 0x24, 0x5c, 0xc2, 0xd3, 0xac, 0x62, 0x91, 0x95, 0xe4, 0x79],
   [0xe7, 0xc8, 0x37, 0x6d, 0x8d, 0xd5, 0x4e, 0xa9, 0x6c, 0x56, 0xf4, 0xea, 0x65, 0x7a, 0xae, 0x08],
   [0xba, 0x78, 0x25, 0x2e, 0x1c, 0xa6, 0xb4, 0xc6, 0xe8, 0xdd, 0x74, 0x1f, 0x4b, 0xbd, 0x8b, 0x8a],
   [0x70, 0x3e, 0xb5, 0x66, 0x48, 0x03, 0xf6, 0x0e, 0x61, 0x35, 0x57, 0xb9, 0x86, 0xc1, 0x1d, 0x9e],
   [0xe1, 0xf8, 0x98, 0x11, 0x69, 0xd9, 0x8e, 0x94, 0x9b, 0x1e, 0x87, 0xe9, 0xce, 0x55, 0x28, 0xdf],
   [0x8c, 0xa1, 0x89, 0x0d, 0xbf, 0xe6, 0x42, 0x68, 0x41, 0x99, 0x2d, 0x0f, 0xb0, 0x54, 0xbb, 0x16]]

/-- `SBox(a)` by the table: row = high nibble, column = low nibble (R132). -/
def sbox (a : Byte) : Byte := ((sboxLow ++ sboxHigh).getD (a.toNat / 16) []).getD (a.toNat % 16) 0#8

/-- `SubBytes` (R134). The AES state is a block, `s[r + 4c]` at row `r`, column `c` (R133). -/
def subBytes (s : Block) : Block := s.map sbox

/-- `ShiftRows(s)[r + 4c] = s[r + 4((c + r) mod 4)]` (R135). -/
def shiftRows (s : Block) : Block :=
  Vector.ofFn fun i : Fin 16 => s[i.val % 4 + 4 * ((i.val / 4 + i.val % 4) % 4)]

/-- Row `r` of `MixColumns` on one column (R136). -/
def mixColumn (a0 a1 a2 a3 : Byte) : Nat → Byte
  | 0 => gmul a0 2#8 ^^^ gmul a1 3#8 ^^^ a2 ^^^ a3
  | 1 => a0 ^^^ gmul a1 2#8 ^^^ gmul a2 3#8 ^^^ a3
  | 2 => a0 ^^^ a1 ^^^ gmul a2 2#8 ^^^ gmul a3 3#8
  | _ => gmul a0 3#8 ^^^ a1 ^^^ a2 ^^^ gmul a3 2#8

/-- `MixColumns` (R136). -/
def mixColumns (s : Block) : Block :=
  Vector.ofFn fun i : Fin 16 =>
    mixColumn s[4 * (i.val / 4)] s[4 * (i.val / 4) + 1] s[4 * (i.val / 4) + 2] s[4 * (i.val / 4) + 3] (i.val % 4)

/-- A word of the key schedule: 4 bytes (R137). -/
abbrev AesWord := Vector Byte 4

/-- What a key schedule answers past its end; no rule reads there. -/
def zeroWord : AesWord := Vector.replicate 4 0#8

/-- `AddRoundKey(s, r)[i] = s[i] ^ w[4r + (i div 4)][i mod 4]` (R137). -/
def addRoundKey (w : List AesWord) (s : Block) (r : Nat) : Block :=
  Vector.ofFn fun i : Fin 16 => s[i] ^^^ (w.getD (4 * r + i.val / 4) zeroWord)[i.val % 4]

/-- `Rcon[1] = 0x01`, `Rcon[i+1] = xtime(Rcon[i])` (R138); no rule reads `Rcon[0]`. -/
def rcon : Nat → Byte
  | 0 => 0#8
  | 1 => 1#8
  | n + 2 => xtime (rcon (n + 1))

/-- `RotWord` (R138). -/
def rotWord (t : AesWord) : AesWord := #v[t[1], t[2], t[3], t[0]]

/-- `SubWord` (R138). -/
def subWord (t : AesWord) : AesWord := t.map sbox

/-- `[Rcon[i], 0, 0, 0]` (R139). -/
def rconWord (i : Nat) : AesWord := #v[rcon i, 0#8, 0#8, 0#8]

/-- Bytewise XOR of two words. -/
def xorWord (a b : AesWord) : AesWord := Vector.zipWith (· ^^^ ·) a b

/-- `w[0..3]` of `KeyExpansion128` (R139). -/
def keyWords128 (k : Block) : List AesWord :=
  List.ofFn fun j : Fin 4 => #v[k[4 * j.val], k[4 * j.val + 1], k[4 * j.val + 2], k[4 * j.val + 3]]

/-- `w[0..7]` of `KeyExpansion256` (R140). -/
def keyWords256 (k : Key256) : List AesWord :=
  List.ofFn fun j : Fin 8 => #v[k[4 * j.val], k[4 * j.val + 1], k[4 * j.val + 2], k[4 * j.val + 3]]

/-- Append `w[j]`, `j` the number of words so far (R139). -/
def expand128 (w : List AesWord) : List AesWord :=
  let j := w.length
  let t := w.getD (j - 1) zeroWord
  let u := if j % 4 = 0 then xorWord (subWord (rotWord t)) (rconWord (j / 4)) else t
  w ++ [xorWord (w.getD (j - 4) zeroWord) u]

/-- Append `w[j]`, `j` the number of words so far (R140). -/
def expand256 (w : List AesWord) : List AesWord :=
  let j := w.length
  let t := w.getD (j - 1) zeroWord
  let u := if j % 8 = 0 then xorWord (subWord (rotWord t)) (rconWord (j / 8))
    else if j % 8 = 4 then subWord t else t
  w ++ [xorWord (w.getD (j - 8) zeroWord) u]

/-- `KeyExpansion128(k)`: 44 words (R139). -/
def keyExpansion128 (k : Block) : List AesWord := Nat.repeat expand128 40 (keyWords128 k)

/-- `KeyExpansion256(k)`: 60 words (R140). -/
def keyExpansion256 (k : Key256) : List AesWord := Nat.repeat expand256 52 (keyWords256 k)

/-- The state of `Cipher` after the initial AddRoundKey and `r` full rounds (R141). -/
def cipherRounds (w : List AesWord) (p : Block) : Nat → Block
  | 0 => addRoundKey w p 0
  | r + 1 => addRoundKey w (mixColumns (shiftRows (subBytes (cipherRounds w p r)))) (r + 1)

/-- `Cipher(w, Nr, p)` (R141). -/
def cipher (w : List AesWord) (nr : Nat) (p : Block) : Block :=
  addRoundKey w (shiftRows (subBytes (cipherRounds w p (nr - 1)))) nr

/-- `AES128(k, p)` (R142). -/
def aes128 (k p : Block) : Block := cipher (keyExpansion128 k) 10 p

/-- `AES256(k, p)` (R143). -/
def aes256 (k : Key256) (p : Block) : Block := cipher (keyExpansion256 k) 14 p

end Sys2Proof.Machine
end

