-- ==== Sys2Proof/Machine/State.lean ====
section
/-! DEFINITION. The state of the CCU and of the accelerator (10_state.md), the reasons a run can stop (R158), and the
power-on state (R170). -/

namespace Sys2Proof.Machine

/-- The descriptor written into the accelerator's registers (R32). -/
structure Descriptor where
  src : Word
  dst : Word
  len : Word
  param : Word
  keyslot : Word
  deriving DecidableEq, Repr

/-- Why the model refuses (R154, R158). Every one is safe: no claim can be proved about a run that reaches it. -/
inductive Refusal where
  /-- Raised by no meaning: the host's name for an instruction without one. Safe. -/
  | notModelled (mnemonic : String)
  /-- `OutOfScope(m)`: a frame of a debug command. Raised by mem-read, mem-write, mem-read32 and call (R89). Safe. -/
  | outOfScope (mnemonic : String)
  /-- `UnknownOpcode(op)`: an opcode byte that names no command. Raised by the service loop (R90). Safe. -/
  | unknownOpcode (op : Byte)
  /-- `UnspecifiedKeyLength(b)`: a length byte other than 0x10 or 0x20. Raised by select-keyslot (R96). Safe. -/
  | unspecifiedKeyLength (lenByte : Byte)
  /-- `MisalignedAccess(a)`: a misaligned access to the register block or the key-input region. Raised by the bus operations;
  out of reach where the parameters meet R12 (R51). Safe. -/
  | misalignedAccess (addr : Word)
  deriving DecidableEq, Repr

/-- Why the model faults (R155, R158). Both are out of reach of this CCU. -/
inductive Fault where
  /-- `StartWhileBusy`: a start write while the accelerator is busy. Raised by the accelerator's start (R112). Safe. -/
  | startWhileBusy
  /-- `UnspecifiedDescriptor`: a descriptor or a command value the CCU never writes. Raised by the accelerator (R82, R119). Safe. -/
  | unspecifiedDescriptor (d : Descriptor)
  deriving DecidableEq, Repr

/-- `Outcome` (R31). -/
inductive RunOutcome where
  | running
  | refused (r : Refusal)
  | faulted (f : Fault)
  deriving DecidableEq, Repr

/-- The steps of encrypt-hw that follow HW0 and are not the busy-poll (R98). -/
inductive HwStep where
  | hw1
  | hw2
  | hw3
  | hw4
  | hw6
  | hw7
  deriving DecidableEq, Repr

/-- The steps of encrypt-sw that follow SW0 (R128). -/
inductive SwStep where
  | sw1
  | sw2
  | sw3
  | sw4
  deriving DecidableEq, Repr

/-- The steps of a calibration command that follow its loop: CN3 and CN4, or CD3 and CD4 (R147, R148). -/
inductive CalibStep where
  | c3
  | c4
  deriving DecidableEq, Repr

/-- `Phase` (R29): `Exec(c, s)` is `execFirst` at the first step of a command and, at its later steps, the constructor of the
command. -/
inductive Phase where
  /-- `Idle`: waiting for the next command frame. -/
  | idle
  /-- `Exec(c, 1)`, with the operands of the frame taken (R83): before HW0 (R98), SW0 (R128), CN1 (R147) or CD1 (R148), or
  before the rule of a key store command, which has no labels. -/
  | execFirst (i : Instr)
  /-- `Exec(encrypt-hw, s)`. -/
  | execHw (k : HwStep)
  /-- `Exec(encrypt-sw, s)`, with the command's operand. -/
  | execSw (p : Block) (k : SwStep)
  /-- `Exec(calib-nop, s)` or `Exec(calib-div, s)`. -/
  | execCalib (c : CalibKind) (k : CalibStep)
  /-- `Poll`: inside the busy-poll of encrypt-hw (R105). -/
  | poll
  /-- `Loop(c, i)`: `i` iterations still to run (R145, R165). -/
  | loop (c : CalibKind) (i : Word)
  deriving DecidableEq, Repr

/-- The key store and keyslot selector (R21 to R24). -/
structure KeyStore where
  /-- `KeyMaterial` (R21). -/
  material : Key256
  /-- `KeyLength` (R22). -/
  length : KeyLength
  /-- `KeySlotId` (R23). -/
  slot : SlotId
  /-- `DestSlotId` (R24). -/
  dest : SlotId
  deriving DecidableEq, Repr

/-- The writable registers of the accelerator's register block (R33 to R38). STATUS has no storage of its own (R113). -/
structure AccRegs where
  src : Word
  dst : Word
  len : Word
  param : Word
  keyslot : Word
  cmd : Word
  deriving DecidableEq, Repr

/-- `AccOp`: what the accelerator latched at the start write (R41, R112). -/
structure AccOp where
  desc : Descriptor
  key : Key256
  deriving DecidableEq, Repr

/-- The accelerator's hidden slots (R42), by slot number: `SlotKey` at size L128 and at size L256, and `SlotOut`. -/
structure Slots where
  keys128 : List (Nat × Block)
  keys256 : List (Nat × Key256)
  out : List (Nat × Block)
  deriving DecidableEq, Repr

/-- The events of the trace (R16, R17). -/
inductive Event where
  /-- `W(addr, v)`: a 32-bit write on the accelerator bus. -/
  | w (addr v : Word)
  /-- `R(addr, v)`: a 32-bit read on the accelerator bus. -/
  | r (addr v : Word)
  /-- `K(b)`: the key-input region write. -/
  | k (b : Key256)
  /-- `T1`: the trigger goes high. -/
  | t1
  /-- `T0`: the trigger goes low. -/
  | t0
  /-- `Rep(b)`: one reply. -/
  | rep (b : List Byte)
  /-- `Start`: the accelerator latches a descriptor. -/
  | start
  /-- `Done`: the accelerator completes. -/
  | done
  deriving DecidableEq, Repr

/-- The model's source of free values (log 5): the values to come, as plain data, and how many were taken beyond them.
Nothing constrains any of these fields, so a statement over all states holds for every value. -/
structure Draws where
  latencies : List (Option Nat)
  statusBits : List (BitVec 31)
  blocks : List Block
  taken : Nat
  deriving DecidableEq, Repr

/-- The machine: the CCU, the accelerator, and the wire between the CCU and the host. -/
@[ext]
structure State where
  /-- The parameters of R12, fixed for the machine: no step changes them (the model's own field, log 1). -/
  cfg : Params
  /-- The key store (R21 to R24). -/
  keys : KeyStore
  /-- `SwKey`; `none` is the marker `INVALID` (R26). -/
  swKey : Option Block
  /-- `Trig`: true is high (R27). -/
  trig : Bool
  /-- `Phase` (R29). -/
  phase : Phase
  /-- `Outcome` (R31, log 9). -/
  outcome : RunOutcome
  /-- CCU data RAM, which holds `Buf` (R30, R44(c)). -/
  ram : Memory
  /-- The accelerator's registers (R33 to R38). -/
  regs : AccRegs
  /-- `KeyIn`: the key-input region (R40). -/
  keyIn : Key256
  /-- `AccOp`; the accelerator is busy exactly while it holds one (R41, log 15). -/
  accOp : Option AccOp
  /-- While busy: how many CCU steps pass before the completion step, `none` where there is none (the model's own field,
  log 6). -/
  accWait : Option Nat
  /-- The accelerator's slots (R42). -/
  slots : Slots
  /-- What the host has sent and the CCU has not taken (R44(a), R84, log 7). -/
  inbox : List Byte
  /-- The event trace, oldest event first (R17, log 19). -/
  trace : List Event
  /-- The source of free values (the model's own field, log 5). -/
  draws : Draws
  deriving DecidableEq, Repr

/-- The state after power-on (R170, 10_state.md section 7). -/
def State.reset : State where
  cfg := Config.params
  keys := ⟨zeroKey, .l128, 0#16, 0#16⟩
  swKey := none
  trig := false
  phase := .idle
  outcome := .running
  ram := []
  regs := ⟨Config.powerOnReg 0, Config.powerOnReg 1, Config.powerOnReg 2, Config.powerOnReg 3, Config.powerOnReg 4,
    Config.powerOnReg 5⟩
  keyIn := Config.powerOnKeyIn
  accOp := none
  accWait := none
  slots := ⟨Config.params.slotKeys128, Config.params.slotKeys256, []⟩
  inbox := []
  trace := []
  draws := ⟨[], [], [], 0⟩

end Sys2Proof.Machine
end

