-- ==== Sys2Proof/Machine/Ops.lean ====
section
/-! DEFINITION. The named operations: field updates, data RAM, events, replies, the trigger line, free values, and how a stop
is recorded. There is no trap to take and none to return from (R161, R162). -/

namespace Sys2Proof.Machine

/-- What a meaning or a step answers. -/
abbrev Result := Host.Outcome State Fault Refusal

/-- Go on with `f` where `o` is a next state; a stop stands. -/
def andThen (o : Result) (f : State → Result) : Result :=
  match o with
  | .next s => f s
  | .fault x => .fault x
  | .refused r => .refused r

/-! One update per field. -/

def State.setKeys (s : State) (v : KeyStore) : State := { s with keys := v }
def State.setSwKey (s : State) (v : Option Block) : State := { s with swKey := v }
def State.setTrig (s : State) (v : Bool) : State := { s with trig := v }
def State.setPhase (s : State) (v : Phase) : State := { s with phase := v }
def State.setOutcome (s : State) (v : RunOutcome) : State := { s with outcome := v }
def State.setRam (s : State) (v : Memory) : State := { s with ram := v }
def State.setRegs (s : State) (v : AccRegs) : State := { s with regs := v }
def State.setKeyIn (s : State) (v : Key256) : State := { s with keyIn := v }
def State.setAccOp (s : State) (v : Option AccOp) : State := { s with accOp := v }
def State.setAccWait (s : State) (v : Option Nat) : State := { s with accWait := v }
def State.setSlots (s : State) (v : Slots) : State := { s with slots := v }
def State.setInbox (s : State) (v : List Byte) : State := { s with inbox := v }
def State.setTrace (s : State) (v : List Event) : State := { s with trace := v }
def State.setDraws (s : State) (v : Draws) : State := { s with draws := v }

/-- Record one event at the end of the trace (R17). -/
def State.emit (s : State) (e : Event) : State := s.setTrace (s.trace ++ [e])

/-! Data RAM (R16, R44(c)). -/

/-- The byte at an address. A byte nothing has written holds its power-on content, a free value (R30). -/
def Memory.read (m : Memory) (a : Nat) : Byte := (cellsLookup m a).getD (Config.powerOnRam a)

/-- Store bytes at consecutive addresses; addresses are 32 bits and wrap (log 13). -/
def Memory.write (m : Memory) (a : Word) : List Byte → Memory
  | [] => m
  | b :: bs => Memory.write (cellsInsert m a.toNat b) (a + 1#32) bs

/-- `MemRead(addr, 16)`: byte `i` comes from `addr + i` (R50). -/
def memRead (m : Memory) (a : Word) : Block := Vector.ofFn fun i => m.read (a + BitVec.ofNat 32 i.val).toNat

/-- `MemWrite(addr, 16, b)`: `addr + i` receives `b[i]` (R50). -/
def memWrite (m : Memory) (a : Word) (b : Block) : Memory := m.write a b.toList

/-- `Buf` (R30). -/
def State.buf (s : State) : Block := memRead s.ram s.cfg.bufAddr

/-- `MemWrite(BUF_ADDR, 16, b)` (R99, R128). -/
def State.writeBuf (s : State) (b : Block) : State := s.setRam (memWrite s.ram s.cfg.bufAddr b)

/-- Byte `i` of a 32-bit access, counted from its address: the target's byte order (R48). No rule in scope uses it. -/
def busByte (c : Params) (v : Word) (i : Fin 4) : Byte :=
  if c.targetLe then (v >>> (8 * i.val)).setWidth 8 else (v >>> (8 * (3 - i.val))).setWidth 8

/-! The trigger line (R120, R121). -/

/-- assert: drive the pin high, event `T1` (R120). -/
def State.assertTrig (s : State) : State := (s.setTrig true).emit .t1

/-- deassert: drive the pin low, event `T0` (R121). -/
def State.deassertTrig (s : State) : State := (s.setTrig false).emit .t0

/-! Replies (R66). -/

/-- The events of a reply with no payload: the status byte alone, or nothing where `ACK_NO_DATA` is false (R66). -/
def ackEvents (c : Params) : List Event := if c.ackNoData then [.rep [c.statusOk]] else []

/-- The reply of a command with no payload (R66). -/
def State.replyAck (s : State) : State := s.setTrace (s.trace ++ ackEvents s.cfg)

/-- `Reply(STATUS_OK ++ payload)` (R66). -/
def State.replyBlock (s : State) (payload : Block) : State := s.emit (.rep (s.cfg.statusOk :: payload.toList))

/-- The handler has returned: back to the head of the service loop (R83). -/
def State.finish (s : State) : State := s.setPhase .idle

/-! Free values (log 5): the next one of a kind, and the state once it is taken. -/

/-- How many CCU steps the next operation of the accelerator lets pass before it completes (R115, R117). -/
def Draws.latency (d : Draws) : Option Nat := d.latencies.headD (Config.freeLatency d.taken)

/-- The next 31 bits `x` of R113. -/
def Draws.status (d : Draws) : BitVec 31 := d.statusBits.headD (Config.freeStatusBits d.taken)

/-- The next 16 bytes the model does not fix (R115, R128). -/
def Draws.block (d : Draws) : Block := d.blocks.headD (Config.freeBlock d.taken)

def State.takeLatency (s : State) : State :=
  s.setDraws { s.draws with latencies := s.draws.latencies.tail, taken := s.draws.taken + 1 }

def State.takeStatus (s : State) : State :=
  s.setDraws { s.draws with statusBits := s.draws.statusBits.tail, taken := s.draws.taken + 1 }

def State.takeBlock (s : State) : State :=
  s.setDraws { s.draws with blocks := s.draws.blocks.tail, taken := s.draws.taken + 1 }

/-! The host and the end of a run. -/

/-- The host sends bytes; the transport holds them after what it holds already (R84, R91, D45). -/
def State.hostSend (s : State) (bytes : List Byte) : State := s.setInbox (s.inbox ++ bytes)

/-- The state in which a run goes on or ends after a step from `s`: a refusal or fault writes `Outcome` and nothing else
(R154, R155). -/
def State.record (s : State) : Result → State
  | .next t => t
  | .fault f => s.setOutcome (.faulted f)
  | .refused r => s.setOutcome (.refused r)

end Sys2Proof.Machine
end

