-- ==== Sys2Proof/Machine/Operands.lean ====
section
/-! DEFINITION. The operand forms: the select-keyslot length byte (R71) and the accelerator descriptor, as the CCU encodes it
(R77 to R81) and as the accelerator reads it (R82, R114, R119). -/

namespace Sys2Proof.Machine

/-- The key length a select-keyslot length byte selects, if any (R71). -/
def keyLengthOfByte (b : Byte) : Option KeyLength :=
  if b = 0x10#8 then some .l128 else if b = 0x20#8 then some .l256 else none

/-- `ksize` (R77). -/
def ksizeCode (c : Params) : KeyLength → BitVec 2
  | .l128 => c.ksize128
  | .l256 => c.ksize256

/-- `hostkey = (KeySlotId == 0)` (R78). -/
def KeyStore.hostKey (k : KeyStore) : Bool := k.slot == 0#16

/-- `redirect = (KeySlotId != 0) and (DestSlotId != 0)` (R78). -/
def KeyStore.redirect (k : KeyStore) : Bool := k.slot != 0#16 && k.dest != 0#16

/-- The parameter bitfield written to PARAM (R78). -/
def KeyStore.paramWord (c : Params) (k : KeyStore) : Word :=
  c.pBase ||| ((ksizeCode c k.length).setWidth 32 <<< c.ksizeShift.val)
    ||| (if k.hostKey then c.pHostkey else 0#32) ||| (if k.redirect then c.pRedirect else 0#32)

/-- The word written to DST: the slot index where the output is redirected, else the buffer (R80). -/
def KeyStore.dstWord (c : Params) (k : KeyStore) : Word := if k.redirect then k.dest.setWidth 32 else c.bufAddr

/-- The whole descriptor of an encrypt-hw (R81). -/
def KeyStore.descriptor (c : Params) (k : KeyStore) : Descriptor where
  src := c.bufAddr
  dst := k.dstWord c
  len := 16#32
  param := k.paramWord c
  keyslot := k.slot.setWidth 32

/-- The descriptor standing in the register block. -/
def AccRegs.descriptor (r : AccRegs) : Descriptor := ⟨r.src, r.dst, r.len, r.param, r.keyslot⟩

/-- `(param >> KSIZE_SHIFT) & 3` (R114). -/
def sizeField (c : Params) (param : Word) : BitVec 2 := (param >>> c.ksizeShift.val).setWidth 2

/-- The AES size a parameter bitfield selects; none for a code the CCU never writes (R114, R119). -/
def sizeOf? (c : Params) (param : Word) : Option KeyLength :=
  if sizeField c param = c.ksize128 then some .l128
  else if sizeField c param = c.ksize256 then some .l256
  else none

/-- The flag of a one-bit mask is set. -/
def flagSet (param mask : Word) : Bool := param &&& mask != 0#32

/-- A descriptor value outside the reserved encodings of R82 and R119: everything the CCU can write passes. -/
def descriptorOk (c : Params) (d : Descriptor) : Bool :=
  d.len == 16#32 && (sizeOf? c d.param).isSome && flagSet d.param c.pBase
    && !(flagSet d.param c.pHostkey && flagSet d.param c.pRedirect)
    && d.param &&& ~~~(c.pBase ||| c.pHostkey ||| c.pRedirect ||| c.ksizeMask) == 0#32
    && d.keyslot >>> 16 == 0#32
    && (!flagSet d.param c.pRedirect || d.dst >>> 16 == 0#32)

end Sys2Proof.Machine
end

