-- ==== Sys2Proof/Machine/Flags.lean ====
section
/-! DEFINITION. The one status flag in scope, `STATUS.BUSY` (R39, R43): what a STATUS read answers and which bit the CCU tests. -/

namespace Sys2Proof.Machine

/-- `AccBusy`: the accelerator is busy exactly while it holds a latched descriptor (R41). -/
def State.accBusy (s : State) : Bool := s.accOp.isSome

/-- `(x << 1) | AccBusy` (R113). -/
def statusWord (x : BitVec 31) (busy : Bool) : Word := (x.setWidth 32 <<< 1) ||| (if busy then 1#32 else 0#32)

/-- Bit 0 of a STATUS word (R39). -/
def busyBit (v : Word) : Bool := v.getLsbD 0

end Sys2Proof.Machine
end

