-- ==== Sys2Proof/Machine/Accelerator.lean ====
section
/-! DEFINITION. The accelerator as the external agent the CCU talks to (42_accel_driver.md section 3): its start, its key
selection, its completion step, and how time passes for it. -/

namespace Sys2Proof.Machine

/-- Start (R112): latch the descriptor and the key-input region, become busy, record `Start`; how long the operation takes is
a free value. A start while busy, or a reserved descriptor, is a fault of the model (R119). -/
def State.startEngine (s : State) : Result :=
  if s.accBusy then .fault .startWhileBusy
  else if descriptorOk s.cfg s.regs.descriptor then
    .next ((((s.setAccOp (some ⟨s.regs.descriptor, s.keyIn⟩)).setAccWait s.draws.latency).takeLatency).emit .start)
  else .fault (.unspecifiedDescriptor s.regs.descriptor)

/-- Bytes 0 to 15 of the latched key-input region: the AES-128 host key (R114). -/
def AccOp.hostKey128 (op : AccOp) : Block := Vector.ofFn fun i => op.key[i.val]

/-- The slot number of a latched descriptor: `keyslot[15:0]` (R114). -/
def Descriptor.keySlot (d : Descriptor) : Nat := (d.keyslot.setWidth 16).toNat

/-- The slot a redirected output goes to: `dst[15:0]` (R115). -/
def Descriptor.outSlot (d : Descriptor) : Nat := (d.dst.setWidth 16).toNat

/-- The AES-128 key of an operation; none where the slot's key is undefined (R114). -/
def accKey128 (c : Params) (sl : Slots) (op : AccOp) : Option Block :=
  if flagSet op.desc.param c.pHostkey then some op.hostKey128 else cellsLookup sl.keys128 op.desc.keySlot

/-- The AES-256 key of an operation; none where the slot's key is undefined (R114). -/
def accKey256 (c : Params) (sl : Slots) (op : AccOp) : Option Key256 :=
  if flagSet op.desc.param c.pHostkey then some op.key else cellsLookup sl.keys256 op.desc.keySlot

/-- The ciphertext of input block `i` where the key is defined (R115). -/
def accCipher (c : Params) (sl : Slots) (op : AccOp) (i : Block) : KeyLength → Option Block
  | .l128 => (accKey128 c sl op).map fun k => aes128 k i
  | .l256 => (accKey256 c sl op).map fun k => aes256 k i

/-- `SlotOut[d] <- e`, and slot `d` has no defined key from then on, at either size (R115). -/
def Slots.redirect (sl : Slots) (d : Nat) (e : Block) : Slots where
  keys128 := cellsErase sl.keys128 d
  keys256 := cellsErase sl.keys256 d
  out := cellsInsert sl.out d e

/-- Where the output `e` of an operation goes: the destination slot, or data RAM at DST (R115). -/
def State.accOutput (s : State) (d : Descriptor) (e : Block) : State :=
  if flagSet d.param s.cfg.pRedirect then s.setSlots (s.slots.redirect d.outSlot e)
  else s.setRam (memWrite s.ram d.dst e)

/-- Completion of the operation `op` at AES size `size` (R115): the ciphertext, or a free value where the key is undefined,
goes to its destination; the accelerator becomes idle and records `Done`. -/
def State.accFinish (s : State) (op : AccOp) (size : KeyLength) : State :=
  match accCipher s.cfg s.slots op (memRead s.ram op.desc.src) size with
  | some e => ((s.accOutput op.desc e).setAccOp none).emit .done
  | none => (((s.accOutput op.desc s.draws.block).takeBlock).setAccOp none).emit .done

/-- The completion step of the accelerator (R115). An operation whose key-size code the CCU never writes has no meaning (R119). -/
def State.accComplete (s : State) : Result :=
  match s.accOp with
  | none => .next s
  | some op =>
    match sizeOf? s.cfg op.desc.param with
    | some size => .next (s.accFinish op size)
    | none => .fault (.unspecifiedDescriptor op.desc)

/-- The accelerator is the agent that moves next: busy, and no CCU step is left before its completion (log 6). -/
def State.accDue (s : State) : Bool := s.accBusy && s.accWait == some 0

/-- One CCU step passes for a busy accelerator (log 6). -/
def State.tick (s : State) : State := if s.accBusy then s.setAccWait (s.accWait.map (· - 1)) else s

end Sys2Proof.Machine
end

