-- ==== Sys2Proof/Machine/Bus.lean ====
section
/-! DEFINITION. The CCU's accesses to the accelerator: `BusWrite32`, `BusRead32` of STATUS, and `KeyRegionWrite` (R16, R45,
R51 to R53). -/

namespace Sys2Proof.Machine

/-- The registers the CCU writes, by name (R33 to R38). -/
inductive Reg where
  | src
  | dst
  | len
  | param
  | keyslot
  | cmd
  deriving DecidableEq, Repr

/-- `ACC_BASE + OFF_<name>` (R45). -/
def regAddr (c : Params) : Reg → Word
  | .src => c.accBase + c.offSrc
  | .dst => c.accBase + c.offDst
  | .len => c.accBase + c.offLen
  | .param => c.accBase + c.offParam
  | .keyslot => c.accBase + c.offKeyslot
  | .cmd => c.accBase + c.offCmd

/-- `ACC_BASE + OFF_STATUS` (R39). -/
def statusAddr (c : Params) : Word := c.accBase + c.offStatus

/-- The register block with one register written (R53). That CMD takes the word written, and keeps it past the start and the
completion, is the model's choice: R53 says so of the other five alone (DESIGN CHOICE, log 27). -/
def AccRegs.write (g : AccRegs) (v : Word) : Reg → AccRegs
  | .src => { g with src := v }
  | .dst => { g with dst := v }
  | .len => { g with len := v }
  | .param => { g with param := v }
  | .keyslot => { g with keyslot := v }
  | .cmd => { g with cmd := v }

/-- What a register write does beyond setting the register: a write of `START_VALUE` to CMD starts the engine (R112); any other
value there has no meaning (R119); the other registers do nothing more (R53). -/
def State.afterWrite (s : State) (v : Word) : Reg → Result
  | .cmd => if v = s.cfg.startValue then s.startEngine else .fault (.unspecifiedDescriptor s.regs.descriptor)
  | .src => .next s
  | .dst => .next s
  | .len => .next s
  | .param => .next s
  | .keyslot => .next s

/-- `BusWrite32(ACC_BASE + OFF_<r>, v)`, event `W` (R16). A misaligned address is refused (R51). -/
def busWrite32 (r : Reg) (v : Word) (s : State) : Result :=
  if aligned4 (regAddr s.cfg r) then
    ((s.setRegs (s.regs.write v r)).emit (.w (regAddr s.cfg r) v)).afterWrite v r
  else .refused (.misalignedAccess (regAddr s.cfg r))

/-- The word a STATUS read answers in this state (R113). -/
def State.statusRead (s : State) : Word := statusWord s.draws.status s.accBusy

/-- `BusRead32(ACC_BASE + OFF_STATUS)`, event `R` (R113): it changes nothing but the trace and the source of free values. -/
def State.afterStatusRead (s : State) : State := s.takeStatus.emit (.r (statusAddr s.cfg) s.statusRead)

/-- `KeyRegionWrite(b)`, event `K(b)`: byte `i` of the region receives `b[i]` (R40, R49). -/
def keyRegionWrite (b : Key256) (s : State) : Result :=
  if aligned4 s.cfg.keyRegion then .next ((s.setKeyIn b).emit (.k b)) else .refused (.misalignedAccess s.cfg.keyRegion)

end Sys2Proof.Machine
end

