-- ==== Sys2Proof/Machine/AccelDriver.lean ====
section
/-! DEFINITION. encrypt-hw (R98): the accelerator command/status driver. `execEncryptHw` is step HW0; `hwStep` and `pollStep`
are the steps after it. -/

namespace Sys2Proof.Machine

/-- encrypt-hw, step HW0: the block goes into `Buf`, and the driver's next step is HW1 (R98, R99). -/
def execEncryptHw (p : Block) (s : State) : Result := .next ((s.writeBuf p).setPhase (.execHw .hw1))

/-- HW1: with `KeySlotId = 0` the whole key material is copied to the key-input region (R101). The parameter word and the
destination of R100 depend on the key store alone, which no step of the command writes: HW2 computes them. -/
def hwKeyCopy (s : State) : Result :=
  andThen (if s.keys.hostKey then keyRegionWrite s.keys.material s else .next s) fun t =>
    .next (t.setPhase (.execHw .hw2))

/-- HW2: the five register writes, in their order (R102). -/
def hwProgram (s : State) : Result :=
  let d := s.keys.descriptor s.cfg
  andThen (busWrite32 .src d.src s) fun s1 =>
  andThen (busWrite32 .dst d.dst s1) fun s2 =>
  andThen (busWrite32 .len d.len s2) fun s3 =>
  andThen (busWrite32 .param d.param s3) fun s4 =>
  andThen (busWrite32 .keyslot d.keyslot s4) fun s5 =>
    .next (s5.setPhase (.execHw .hw3))

/-- HW3: the trigger goes high (R103). -/
def hwAssert (s : State) : Result := .next (s.assertTrig.setPhase (.execHw .hw4))

/-- HW4: the start write (R104); the CCU is then in the busy-poll. -/
def hwStart (s : State) : Result :=
  andThen (busWrite32 .cmd s.cfg.startValue s) fun t => .next (t.setPhase .poll)

/-- One iteration of the busy-poll HW5: read STATUS; leave the loop where bit 0 reads 0 (R105). -/
def pollStep (s : State) : Result :=
  if aligned4 (statusAddr s.cfg) then
    .next (s.afterStatusRead.setPhase (if busyBit s.statusRead then .poll else .execHw .hw6))
  else .refused (.misalignedAccess (statusAddr s.cfg))

/-- HW6: the trigger goes low (R106). -/
def hwDeassert (s : State) : Result := .next (s.deassertTrig.setPhase (.execHw .hw7))

/-- HW7: reply with what `Buf` holds (R107). -/
def hwReply (s : State) : Result := .next ((s.replyBlock s.buf).finish)

/-- The steps of encrypt-hw after HW0, by label (R98). -/
def hwStep (k : HwStep) (s : State) : Result :=
  match k with
  | .hw1 => hwKeyCopy s
  | .hw2 => hwProgram s
  | .hw3 => hwAssert s
  | .hw4 => hwStart s
  | .hw6 => hwDeassert s
  | .hw7 => hwReply s

end Sys2Proof.Machine
end

