-- ==== Sys2Proof/Machine/Calibration.lean ====
section
/-! DEFINITION. calib-nop and calib-div (45_calibration.md): a trigger-framed loop that computes nothing. -/

namespace Sys2Proof.Machine

/-- CN1 or CD1: the trigger goes high and the loop begins with `n` iterations to run (R145, R147, R148). -/
def calibStart (c : CalibKind) (n : Word) (s : State) : Result := .next (s.assertTrig.setPhase (.loop c n))

/-- One step of the loop: an iteration, which changes nothing but the count, or the way out when none is left (R145). -/
def loopStep (c : CalibKind) (i : Word) (s : State) : Result :=
  if i = 0#32 then .next (s.setPhase (.execCalib c .c3)) else .next (s.setPhase (.loop c (i - 1#32)))

/-- CN3 or CD3: the trigger goes low (R147, R148). -/
def calibDeassert (c : CalibKind) (s : State) : Result := .next (s.deassertTrig.setPhase (.execCalib c .c4))

/-- CN4 or CD4: the reply (R147, R148). -/
def calibReply (s : State) : Result := .next (s.replyAck.finish)

/-- The steps after the loop, by label (R147, R148). -/
def calibStep (c : CalibKind) (k : CalibStep) (s : State) : Result :=
  match k with
  | .c3 => calibDeassert c s
  | .c4 => calibReply s

/-- calib-nop (R147): its first step. -/
def execCalibNop (n : Word) (s : State) : Result := calibStart .nop n s

/-- calib-div (R148): its first step. -/
def execCalibDiv (n : Word) (s : State) : Result := calibStart .div n s

end Sys2Proof.Machine
end

