-- ==== Sys2Proof/Machine/Debug.lean ====
section
/-! DEFINITION. The debug memory commands (R89): outside the block in scope, decoded and refused by name (R9(c)). -/

namespace Sys2Proof.Machine

/-- `Outcome <- Refused(OutOfScope(<mnemonic>))`: no state write, no event (R89). -/
def outOfScope (mnemonic : String) (_ : State) : Result := .refused (.outOfScope mnemonic)

/-- mem-read (R89). -/
def execMemRead (_addr _length : Word) (s : State) : Result := outOfScope "mem-read" s

/-- mem-write (R89). -/
def execMemWrite (_addr _word : Word) (s : State) : Result := outOfScope "mem-write" s

/-- mem-read32 (R89). -/
def execMemRead32 (_addr : Word) (s : State) : Result := outOfScope "mem-read32" s

/-- call (R89). -/
def execCall (_addr : Word) (s : State) : Result := outOfScope "call" s

end Sys2Proof.Machine
end

