-- ==== Sys2Proof/Machine/KeyCommands.lean ====
section
/-! DEFINITION. The key store commands (41_keystore.md): load-key-128, load-key-256, select-keyslot, reset. Each runs whole in
one step and writes only the key store and the software key (R93). -/

namespace Sys2Proof.Machine

/-- The reply of a command with no payload, and back to the service loop. -/
def State.finishAck (s : State) : State := s.replyAck.finish

/-- `KeyMaterial[0..15] <- k`, bytes 16 to 31 kept (R94, 90_conflicts.md C1). -/
def overlay128 (old : Key256) (k : Block) : Key256 :=
  Vector.ofFn fun i => if h : i.val < 16 then k[i.val] else old[i]

/-- load-key-128 (R94). -/
def execLoadKey128 (k : Block) (s : State) : Result :=
  .next (((s.setKeys ⟨overlay128 s.keys.material k, .l128, 0#16, 0#16⟩).setSwKey (some k)).finishAck)

/-- load-key-256 (R95). -/
def execLoadKey256 (k : Key256) (s : State) : Result :=
  .next (((s.setKeys ⟨k, .l256, 0#16, 0#16⟩).setSwKey none).finishAck)

/-- select-keyslot (R96): refused, before it writes anything, where the length byte has no meaning. -/
def execSelectKeyslot (slot dest : SlotId) (lenByte : Byte) (s : State) : Result :=
  match keyLengthOfByte lenByte with
  | some len => .next ((s.setKeys ⟨s.keys.material, len, slot, dest⟩).finishAck)
  | none => .refused (.unspecifiedKeyLength lenByte)

/-- The reset command (R97); it is not a power-on (R172). -/
def execReset (s : State) : Result :=
  .next (((s.setKeys ⟨zeroKey, .l128, 0#16, 0#16⟩).setSwKey (some zeroBlock)).finishAck)

end Sys2Proof.Machine
end

