-- ==== Sys2Proof/Machine/SwAes.lean ====
section
/-! DEFINITION. encrypt-sw (R128): the software AES-128 core. `execEncryptSw` is step SW0; `swStep` holds the steps after it. -/

namespace Sys2Proof.Machine

/-- encrypt-sw, step SW0: the block goes into `Buf`, and the next step is SW1 (R128). -/
def execEncryptSw (p : Block) (s : State) : Result := .next ((s.writeBuf p).setPhase (.execSw p .sw1))

/-- The body of SW2: `AES128(SwKey, P)` into `Buf` at L128, a free value where `SwKey` is `INVALID`; nothing at L256 (R128). -/
def State.swEncrypt (s : State) (p : Block) : State :=
  match s.keys.length with
  | .l256 => s
  | .l128 =>
    match s.swKey with
    | some k => s.writeBuf (aes128 k p)
    | none => (s.writeBuf s.draws.block).takeBlock

/-- SW1: the trigger goes high (R128). -/
def swAssert (p : Block) (s : State) : Result := .next (s.assertTrig.setPhase (.execSw p .sw2))

/-- SW2: the software encryption (R128). -/
def swCompute (p : Block) (s : State) : Result := .next ((s.swEncrypt p).setPhase (.execSw p .sw3))

/-- SW3: the trigger goes low (R128). -/
def swDeassert (p : Block) (s : State) : Result := .next (s.deassertTrig.setPhase (.execSw p .sw4))

/-- SW4: reply with what `Buf` holds (R128). -/
def swReply (s : State) : Result := .next ((s.replyBlock s.buf).finish)

/-- The steps of encrypt-sw after SW0, by label (R128). -/
def swStep (p : Block) (k : SwStep) (s : State) : Result :=
  match k with
  | .sw1 => swAssert p s
  | .sw2 => swCompute p s
  | .sw3 => swDeassert p s
  | .sw4 => swReply s

end Sys2Proof.Machine
end

