-- ==== Sys2Proof/Machine/Dispatch.lean ====
section
/-! DEFINITION. The dispatch of R86: one arm per command. -/

namespace Sys2Proof.Machine

/-- The first step of a command's rule, with its operands (R83, R86). -/
def exec (i : Instr) (s : State) : Host.Outcome State Fault Refusal :=
  match i with
  | .loadKey128 k => Sys2Proof.Machine.execLoadKey128 k s
  | .loadKey256 k => Sys2Proof.Machine.execLoadKey256 k s
  | .selectKeyslot slot dest lenByte => Sys2Proof.Machine.execSelectKeyslot slot dest lenByte s
  | .encryptHw p => Sys2Proof.Machine.execEncryptHw p s
  | .encryptSw p => Sys2Proof.Machine.execEncryptSw p s
  | .reset => Sys2Proof.Machine.execReset s
  | .memRead addr length => Sys2Proof.Machine.execMemRead addr length s
  | .memWrite addr word => Sys2Proof.Machine.execMemWrite addr word s
  | .memRead32 addr => Sys2Proof.Machine.execMemRead32 addr s
  | .call addr => Sys2Proof.Machine.execCall addr s
  | .calibNop n => Sys2Proof.Machine.execCalibNop n s
  | .calibDiv n => Sys2Proof.Machine.execCalibDiv n s

end Sys2Proof.Machine
end

