-- ==== Sys2Proof/Machine/Service.lean ====
section
/-! DEFINITION. The service loop (R83) and the CCU's step at each phase. -/

namespace Sys2Proof.Machine

/-- The checks of R159 that come before a command's procedure: the debug commands are out of scope (R89), and the length byte
of a select-keyslot must have a meaning (R96). -/
def accepted : Instr → Bool
  | .loadKey128 _ => true
  | .loadKey256 _ => true
  | .selectKeyslot _ _ lenByte => (keyLengthOfByte lenByte).isSome
  | .encryptHw _ => true
  | .encryptSw _ => true
  | .reset => true
  | .memRead _ _ => false
  | .memWrite _ _ => false
  | .memRead32 _ => false
  | .call _ => false
  | .calibNop _ => true
  | .calibDiv _ => true

/-- `Phase <- Exec(op, 1)` with the frame off the wire (R83). A command that fails its checks is refused in this very step,
before anything is written, the phase and the wire included (R154, R159). -/
def takeFrame (i : Instr) (rest : List Byte) (s : State) : Result :=
  if accepted i then .next ((s.setInbox rest).setPhase (.execFirst i)) else exec i s

/-- The head of the service loop: take a whole frame from the wire; an unknown opcode is refused; without a whole frame, wait
(R65, R83, R90, R157). -/
def serviceLoop (s : State) : Result :=
  match decode s.cfg s.inbox with
  | .frame i rest => takeFrame i rest s
  | .incomplete => .next s
  | .unknownOpcode op => .refused (.unknownOpcode op)

/-- One step of the CCU, by its phase (R29). -/
def ccuStep (s : State) : Result :=
  match s.phase with
  | .idle => serviceLoop s
  | .execFirst i => exec i s
  | .execHw k => hwStep k s
  | .execSw p k => swStep p k s
  | .execCalib c k => calibStep c k s
  | .poll => pollStep s
  | .loop c i => loopStep c i s

/-- One step of the machine while it runs: of the accelerator where its completion is due, else of the CCU (R20, log 6). -/
def runStep (s : State) : Result := if s.accDue then s.accComplete else ccuStep s.tick

/-- `s` with the frame that begins with these bytes first on the wire, and the CCU at the head of its service loop. -/
def State.frameWaiting (s : State) (bytes : List Byte) : State :=
  (s.setPhase .idle).setInbox (bytes.take (frameLength s.cfg bytes) ++ s.inbox)

/-- `s` with the frame that begins with these bytes next to run: taken, where its command passes the checks of R159; first on
the wire, where the next step refuses it or waits (log 7). -/
def State.withFrame (s : State) (bytes : List Byte) : State :=
  match decode s.cfg bytes with
  | .frame i _ => if accepted i then s.setPhase (.execFirst i) else s.frameWaiting bytes
  | .incomplete => s.frameWaiting bytes
  | .unknownOpcode _ => s.frameWaiting bytes

end Sys2Proof.Machine
end

