-- ==== Sys2Proof/Machine/Step.lean ====
section
/-! DEFINITION. One step of the machine, and the placing of an instruction where the next step takes it. -/

namespace Sys2Proof.Machine

/-- One step: nothing is enabled once `Outcome` has left `Running` (R31, R154). -/
def step (s : State) : Host.Outcome State Fault Refusal :=
  match s.outcome with
  | .refused r => .refused r
  | .faulted f => .fault f
  | .running => runStep s

/-- `s` with the instruction `w`, numbered as the opcode table numbers it, as the next to run (log 7). -/
def State.withFetchWord (s : State) (nbits w : Nat) : State := s.withFrame (tableWordBytes nbits w)

end Sys2Proof.Machine
end

