-- ==== Sys2Proof/Safety.lean ====
section
/-! DEFINITION. The terms claims use: the trigger window, the trace read as a trigger line, what it is for the accelerator to
complete, the end of a run, and the invariant of the machine. -/

namespace Sys2Proof.Machine

/-- The phases between the `T1` and the `T0` of a framed command (R123, R124). -/
def Phase.framed : Phase → Bool
  | .idle => false
  | .execFirst _ => false
  | .execHw .hw1 => false
  | .execHw .hw2 => false
  | .execHw .hw3 => false
  | .execHw .hw4 => true
  | .execHw .hw6 => true
  | .execHw .hw7 => false
  | .execSw _ .sw1 => false
  | .execSw _ .sw2 => true
  | .execSw _ .sw3 => true
  | .execSw _ .sw4 => false
  | .execCalib _ .c3 => true
  | .execCalib _ .c4 => false
  | .poll => true
  | .loop _ _ => true

/-- A command at its first step has passed the checks of R159. -/
def Phase.checked : Phase → Bool
  | .idle => true
  | .execFirst i => accepted i
  | .execHw _ => true
  | .execSw _ _ => true
  | .execCalib _ _ => true
  | .poll => true
  | .loop _ _ => true

/-- The phases between the register writes of HW2 and the start write of HW4. -/
def Phase.programmed (p : Phase) : Bool := p == .execHw .hw3 || p == .execHw .hw4

/-- The phases between the key copy of HW1 and the start write of HW4. -/
def Phase.keyCopied (p : Phase) : Bool := p == .execHw .hw2 || p.programmed

/-- The level the trigger line has after an event, starting from a level; none where a frame would open inside a frame or
close outside one (R125). -/
def trigAfter (level : Option Bool) : Event → Option Bool
  | .t1 => if level = some false then some true else none
  | .t0 => if level = some true then some false else none
  | .w _ _ => level
  | .r _ _ => level
  | .k _ => level
  | .rep _ => level
  | .start => level
  | .done => level

/-- The level of the trigger line after a whole trace, from the power-on level (R27). -/
def trigReplay (trace : List Event) : Option Bool := trace.foldl trigAfter (some false)

/-- An event of the kind `Rep`. -/
def Event.isRep : Event → Bool
  | .rep _ => true
  | .w _ _ => false
  | .r _ _ => false
  | .k _ => false
  | .t1 => false
  | .t0 => false
  | .start => false
  | .done => false

/-- The mnemonics of the debug commands (R89). -/
def debugMnemonic : Command → Option String
  | .memRead => some "mem-read"
  | .memWrite => some "mem-write"
  | .memRead32 => some "mem-read32"
  | .call => some "call"
  | .loadKey128 => none
  | .loadKey256 => none
  | .selectKeyslot => none
  | .encryptHw => none
  | .encryptSw => none
  | .reset => none
  | .calibNop => none
  | .calibDiv => none

/-- The key store commands of 41_keystore.md. -/
def keyCommands : List Command := [.loadKey128, .loadKey256, .selectKeyslot, .reset]

/-- The premise `ACCEL_COMPLETES` for the next operation (R117): its completion step comes after `j` further CCU steps. -/
abbrev AccelCompletesAfter (s : State) (j : Nat) : Prop := s.draws.latency = some j

/-- The run has come to its end: nothing is left on the wire, the CCU waits, no operation is in flight (R92). -/
abbrev RanToEnd (s : State) : Prop := s.inbox = [] ∧ s.phase = .idle ∧ s.outcome = .running ∧ s.accBusy = false

/-- `Trig` is 1 exactly between the `T1` and the `T0` of one framed command (R124). -/
abbrev TrigWindow (s : State) : Prop := s.trig = s.phase.framed

/-- An operation is in flight only during the busy-poll (R55, R178). -/
abbrev OneOperation (s : State) : Prop := s.accBusy = true → s.phase = .poll

/-- Before the start write the registers hold this command's descriptor (R81, R175). -/
abbrev Programmed (s : State) : Prop :=
  s.phase.programmed = true → s.regs.descriptor = s.keys.descriptor s.cfg

/-- Before the start write the key-input region holds the key material, in host-key mode (R101, R175). -/
abbrev KeyCopied (s : State) : Prop :=
  s.phase.keyCopied = true → s.keys.hostKey = true → s.keyIn = s.keys.material

/-- The operation in flight is the one the key store describes (R112). -/
abbrev LatchedCurrent (s : State) : Prop :=
  ∀ op ∈ s.accOp, op.desc = s.keys.descriptor s.cfg ∧ (s.keys.hostKey = true → op.key = s.keys.material)

/-- A command that has begun has passed the checks of R159. -/
abbrev Accepted (s : State) : Prop := s.phase.checked = true

/-- The slot maps are in canonical form, their keys 16-bit slot numbers. -/
abbrev Slots.wf (sl : Slots) : Prop :=
  cellsWf (2 ^ 16) sl.keys128 ∧ cellsWf (2 ^ 16) sl.keys256 ∧ cellsWf (2 ^ 16) sl.out

/-- The trace opens and closes trigger frames in turn and leaves the line at its present level (R125). -/
abbrev TraceFramed (s : State) : Prop := trigReplay s.trace = some s.trig

/-- The invariant of the machine: what holds in every state between power-on and the end of a run. -/
abbrev Inv (s : State) : Prop :=
  s.cfg.Valid ∧ s.outcome = .running ∧ s.ram.wf ∧ s.slots.wf ∧ TrigWindow s ∧ TraceFramed s ∧ OneOperation s ∧
    Programmed s ∧ KeyCopied s ∧ LatchedCurrent s ∧ Accepted s

end Sys2Proof.Machine
end

