-- ==== Sys2Proof/Certificates/Slice0/Obligations.lean ====
section
/-! DEFINITION. The statements for the provers. -/

open Sys2Proof Sys2Proof.Machine

/-! ## Key store commands -/

/-- R94: load-key-128 writes bytes 0 to 15 of the key material and keeps bytes 16 to 31, returns to host-key mode, derives the
software key, replies with the status byte (R66), and changes nothing else. It completes in every state. -/
def Obligations.LoadKey128WritesKeyStore : Prop :=
  ∀ (k : Block) (s : State), ∃ m : Key256,
    (∀ i (h : i < 16), m[i] = k[i]) ∧ (∀ i (h : i < 32), 16 ≤ i → m[i] = s.keys.material[i]) ∧
    exec (.loadKey128 k) s = .next { s with
      keys := ⟨m, .l128, 0#16, 0#16⟩, swKey := some k, phase := .idle,
      trace := s.trace ++ (if s.cfg.ackNoData = true then [.rep [s.cfg.statusOk]] else []) }

/-- R95: load-key-256 writes the whole key material and leaves no software key, replies with the status byte (R66), and
changes nothing else. It completes in every state. -/
def Obligations.LoadKey256WritesKeyStore : Prop :=
  ∀ (k : Key256) (s : State),
    exec (.loadKey256 k) s = .next { s with
      keys := ⟨k, .l256, 0#16, 0#16⟩, swKey := none, phase := .idle,
      trace := s.trace ++ (if s.cfg.ackNoData = true then [.rep [s.cfg.statusOk]] else []) }

/-- R96: select-keyslot sets both slot ids and the key length without a range check and keeps the key material and the software
key, and replies with the status byte (R66); a length byte other than 0x10 and 0x20 is refused and the refusal writes nothing
but `Outcome`. -/
def Obligations.SelectKeyslotSetsSlotsAndLength : Prop :=
  ∀ (slot dest : SlotId) (b : Byte) (s : State),
    if b = 0x10#8 then
      exec (.selectKeyslot slot dest b) s = .next { s with
        keys := ⟨s.keys.material, .l128, slot, dest⟩, phase := .idle,
        trace := s.trace ++ (if s.cfg.ackNoData = true then [.rep [s.cfg.statusOk]] else []) }
    else if b = 0x20#8 then
      exec (.selectKeyslot slot dest b) s = .next { s with
        keys := ⟨s.keys.material, .l256, slot, dest⟩, phase := .idle,
        trace := s.trace ++ (if s.cfg.ackNoData = true then [.rep [s.cfg.statusOk]] else []) }
    else
      exec (.selectKeyslot slot dest b) s = .refused (.unspecifiedKeyLength b) ∧
        s.record (exec (.selectKeyslot slot dest b) s) = { s with outcome := .refused (.unspecifiedKeyLength b) } ∧
        step (s.record (exec (.selectKeyslot slot dest b) s)) = .refused (.unspecifiedKeyLength b)

/-- R97: the reset command puts the key store at its defaults and the software key at the all-zero key; the trigger, the
buffer, the accelerator and everything else stay; it replies with the status byte (R66). It completes in every state. -/
def Obligations.ResetCommandRestoresDefaults : Prop :=
  ∀ s : State,
    exec .reset s = .next { s with
      keys := ⟨Vector.replicate 32 0#8, .l128, 0#16, 0#16⟩, swKey := some (Vector.replicate 16 0#8), phase := .idle,
      trace := s.trace ++ (if s.cfg.ackNoData = true then [.rep [s.cfg.statusOk]] else []) }

/-- R66, R93: a key store command writes only the key store and the software key, and its only event is its one reply, the
status byte alone. -/
def Obligations.KeyCommandsTouchOnlyKeyState : Prop :=
  ∀ (i : Instr) (s t : State), i.command ∈ keyCommands → exec i s = .next t →
    t = { s with
      keys := t.keys, swKey := t.swKey, phase := .idle,
      trace := s.trace ++ (if s.cfg.ackNoData = true then [.rep [s.cfg.statusOk]] else []) }

/-- R21 to R26, over the whole machine: a step changes the key store or the software key only by running a key store
command. -/
def Obligations.KeyStateChangesOnlyByKeyCommands : Prop :=
  ∀ s t : State, step s = .next t → (t.keys ≠ s.keys ∨ t.swKey ≠ s.swKey) →
    ∃ i, s.phase = .execFirst i ∧ i.command ∈ keyCommands

/-! ## Encoding and dispatch -/

/-- R63 to R75: decoding the frame of any instruction gives it back, with the bytes after it left on the wire. -/
def Obligations.DecodeOfEncode : Prop :=
  ∀ (c : Params) (i : Instr) (rest : List Byte), c.opcodesDistinct → decode c (encode c i ++ rest) = .frame i rest

/-- R63 to R75, the other direction: whatever the decoder answers a frame on is that frame's encoding and the bytes after it. -/
def Obligations.EncodeOfDecode : Prop :=
  ∀ (c : Params) (bytes : List Byte) (i : Instr) (rest : List Byte),
    decode c bytes = .frame i rest → bytes = encode c i ++ rest

/-- Frames written out byte by byte under fixture TF (95_test_vectors.md sections 1.2 and 2) decode to their commands. -/
def Obligations.WrittenFramesDecode : Prop :=
  decode .fixture [0xa5] = .frame .reset [] ∧
  decode .fixture [0xa2, 0xff, 0xff, 0x00, 0x05, 0x20] = .frame (.selectKeyslot 0xffff 5 0x20) [] ∧
  decode .fixture [0xa6, 0, 0, 0x10, 0, 0, 0, 0, 3] = .frame (.memRead 0x1000 3) [] ∧
  decode .fixture [0xa7, 0, 0, 0x10, 0, 0xde, 0xad, 0xbe, 0xef] = .frame (.memWrite 0x1000 0xdeadbeef) [] ∧
  decode .fixture [0xa9, 0x20, 0, 0, 0] = .frame (.call 0x20000000) [] ∧
  decode .fixture [0xaa, 0x01, 0, 0, 0, 0xa5] = .frame (.calibNop 0x01000000) [0xa5] ∧
  decode .fixture [0xab, 0, 0, 0x01, 0] = .frame (.calibDiv 256) [] ∧
  decode .fixture [0xff] = .unknownOpcode 0xff

/-- R29, R83, R86, R159: when the CCU waits and the bytes on the wire decode to a well-formed instruction in scope, the step
takes its frame off the wire and enters the first step of its command; a debug command, or a length byte without a meaning, is
refused in that same step, as exec refuses it. At the first step of a command, step is exec of the instruction taken. With an
idle accelerator the two steps are exec of the decoded instruction. (`tick` is the model's count of CCU steps for a busy
accelerator, log 6; it does nothing when the accelerator is idle. That taking a frame is a step of its own is log 8.) -/
def Obligations.StepRunsDecodedInstruction : Prop :=
  (∀ (s : State) (i : Instr) (rest : List Byte),
    s.outcome = .running → s.phase = .idle → s.accDue = false → decode s.cfg s.inbox = .frame i rest →
    if WellFormed i = true ∧ debugMnemonic i.command = none then
      step s = .next { s.tick with phase := .execFirst i, inbox := rest } ∧
        (s.accBusy = false → core.run 2 s = exec i { s with phase := .execFirst i, inbox := rest })
    else step s = exec i s ∧ ∃ r, step s = .refused r) ∧
  ∀ (s : State) (i : Instr),
    s.outcome = .running → s.accDue = false → s.phase = .execFirst i →
    step s = exec i s.tick ∧ (s.accBusy = false → step s = exec i s)

/-- R90: an opcode byte that is none of the twelve is refused by name, whatever follows it, and the run ends there. -/
def Obligations.UnknownOpcodeRefused : Prop :=
  ∀ (s : State) (op : Byte) (rest : List Byte),
    s.outcome = .running → s.phase = .idle → s.accDue = false → s.inbox = op :: rest →
    (∀ cmd, s.cfg.opcode cmd ≠ op) →
    step s = .refused (.unknownOpcode op) ∧ s.record (step s) = { s with outcome := .refused (.unknownOpcode op) } ∧
      step (s.record (step s)) = .refused (.unknownOpcode op)

/-- R65, R157: while the wire holds no whole frame the CCU waits and nothing changes. -/
def Obligations.WaitingForFrameChangesNothing : Prop :=
  ∀ s : State, s.outcome = .running → s.phase = .idle → s.accBusy = false →
    (s.inbox = [] ∨ ∃ cmd p, s.inbox = s.cfg.opcode cmd :: p ∧ p.length < cmd.paramLength) → s.cfg.opcodesDistinct →
    step s = .next s

/-- R89: each debug command is refused by its mnemonic, writes nothing but `Outcome`, and ends the run. -/
def Obligations.DebugCommandsRefused : Prop :=
  ∀ (i : Instr) (m : String) (s : State), debugMnemonic i.command = some m →
    exec i s = .refused (.outOfScope m) ∧ s.record (exec i s) = { s with outcome := .refused (.outOfScope m) } ∧
      step (s.record (exec i s)) = .refused (.outOfScope m)

/-- R31, R154, R155: once a step refuses or faults, every later step stops in the same way and the state never changes again. -/
def Obligations.StopsAreTerminal : Prop :=
  ∀ s : State,
    (∀ r, step s = .refused r → step (s.record (step s)) = .refused r ∧
      (s.record (step s)).record (step (s.record (step s))) = s.record (step s)) ∧
    (∀ f, step s = .fault f → step (s.record (step s)) = .fault f ∧
      (s.record (step s)).record (step (s.record (step s))) = s.record (step s))

/-- R154, R158, R159: from a state of the invariant no step faults, and a step refuses only at the head of the service loop, for
an unknown opcode, a debug command or an unspecified key length, each with its own cause. -/
def Obligations.OnlySpecifiedStops : Prop :=
  ∀ s : State, Inv s → (∀ f, step s ≠ .fault f) ∧
    ∀ r, step s = .refused r → s.phase = .idle ∧
      ((∃ op rest, s.inbox = op :: rest ∧ (∀ cmd, s.cfg.opcode cmd ≠ op) ∧ r = .unknownOpcode op) ∨
       (∃ i rest m, decode s.cfg s.inbox = .frame i rest ∧ debugMnemonic i.command = some m ∧ r = .outOfScope m) ∨
       (∃ slot dest b rest, decode s.cfg s.inbox = .frame (.selectKeyslot slot dest b) rest ∧ b ≠ 0x10#8 ∧ b ≠ 0x20#8 ∧
          r = .unspecifiedKeyLength b))

/-- R84: bytes the host sends while a command runs wait in the transport: they change no step but for standing behind what the
wire held. -/
def Obligations.HostBytesWaitTheirTurn : Prop :=
  ∀ (s t : State) (bytes : List Byte), step s = .next t →
    (s.phase = .idle → s.accDue = false → decode s.cfg s.inbox ≠ .incomplete) →
    step (s.hostSend bytes) = .next (t.hostSend bytes)

/-- R87, R88: a reply is the last event of its step, the CCU is then back at the head of its loop, and the reply begins with
the success status. -/
def Obligations.ReplyClosesCommand : Prop :=
  ∀ s t : State, step s = .next t → ∃ es, t.trace = s.trace ++ es ∧
    ∀ b, Event.rep b ∈ es → es.getLast? = some (.rep b) ∧ t.phase = .idle ∧ b.head? = some s.cfg.statusOk

/-! ## The descriptor -/

/-- R79: the six values of the parameter bitfield, by case. -/
def Obligations.ParamBitfieldCases : Prop :=
  ∀ (c : Params) (k : KeyStore),
    let f128 := c.pBase ||| (c.ksize128.setWidth 32 <<< c.ksizeShift.val)
    let f256 := c.pBase ||| (c.ksize256.setWidth 32 <<< c.ksizeShift.val)
    (k.length = .l128 → k.slot = 0#16 → k.paramWord c = f128 ||| c.pHostkey) ∧
    (k.length = .l128 → k.slot ≠ 0#16 → k.dest = 0#16 → k.paramWord c = f128) ∧
    (k.length = .l128 → k.slot ≠ 0#16 → k.dest ≠ 0#16 → k.paramWord c = f128 ||| c.pRedirect) ∧
    (k.length = .l256 → k.slot = 0#16 → k.paramWord c = f256 ||| c.pHostkey) ∧
    (k.length = .l256 → k.slot ≠ 0#16 → k.dest = 0#16 → k.paramWord c = f256) ∧
    (k.length = .l256 → k.slot ≠ 0#16 → k.dest ≠ 0#16 → k.paramWord c = f256 ||| c.pRedirect)

/-- R36, R78: under the constraints of R12 every field of the parameter bitfield reads back as it was encoded, and every bit
outside the named fields is 0. -/
def Obligations.ParamFieldsReadBack : Prop :=
  ∀ (c : Params) (k : KeyStore), c.paramFieldsOk →
    flagSet (k.paramWord c) c.pBase = true ∧
    (flagSet (k.paramWord c) c.pHostkey = true ↔ k.slot = 0#16) ∧
    (flagSet (k.paramWord c) c.pRedirect = true ↔ k.slot ≠ 0#16 ∧ k.dest ≠ 0#16) ∧
    sizeOf? c (k.paramWord c) = some k.length ∧
    k.paramWord c &&& ~~~(c.pBase ||| c.pHostkey ||| c.pRedirect ||| c.ksizeMask) = 0#32

/-- R80, R81, R110: the descriptor of an encrypt-hw, for every slot id without a range check. -/
def Obligations.DescriptorOfKeyStore : Prop :=
  ∀ (c : Params) (k : KeyStore),
    let d := k.descriptor c
    d.src = c.bufAddr ∧ d.len = 16#32 ∧ d.keyslot.toNat = k.slot.toNat ∧
      (k.slot ≠ 0#16 → k.dest ≠ 0#16 → d.dst.toNat = k.dest.toNat) ∧ ((k.slot = 0#16 ∨ k.dest = 0#16) → d.dst = c.bufAddr)

/-- R82, R119: every descriptor the CCU writes lies outside the reserved encodings: length 16, one of the two size codes, the
base flag, not both other flags, no PARAM bit beside the named fields, KEYSLOT and a redirected DST below 2^16. The model's
check passes it. -/
def Obligations.DescriptorNeverReserved : Prop :=
  ∀ (c : Params) (k : KeyStore), c.paramFieldsOk →
    let d := k.descriptor c
    descriptorOk c d = true ∧ d.len = 16#32 ∧
      ((d.param >>> c.ksizeShift.val) &&& 3#32 = c.ksize128.setWidth 32 ∨
        (d.param >>> c.ksizeShift.val) &&& 3#32 = c.ksize256.setWidth 32) ∧
      d.param &&& c.pBase ≠ 0#32 ∧ (d.param &&& c.pHostkey = 0#32 ∨ d.param &&& c.pRedirect = 0#32) ∧
      d.param &&& ~~~(c.pBase ||| c.pHostkey ||| c.pRedirect ||| (3#32 <<< c.ksizeShift.val)) = 0#32 ∧
      d.keyslot.toNat < 2 ^ 16 ∧ (d.param &&& c.pRedirect ≠ 0#32 → d.dst.toNat < 2 ^ 16)

/-! ## encrypt-hw and the accelerator -/

/-- R98, R99: the first step of encrypt-hw stores the block at `BUF_ADDR`, byte `i` at `BUF_ADDR + i`; the next step is HW1; every
byte outside the buffer and everything else stays as it was. -/
def Obligations.EncryptHwStoresBlock : Prop :=
  ∀ (p : Block) (s : State), ∃ t,
    exec (.encryptHw p) s = .next t ∧ t = { s with ram := t.ram, phase := .execHw .hw1 } ∧ t.buf = p ∧
      (∀ i (h : i < 16), t.ram.read (s.cfg.bufAddr + BitVec.ofNat 32 i).toNat = p[i]) ∧
      ∀ a, (∀ i < 16, a ≠ (s.cfg.bufAddr + BitVec.ofNat 32 i).toNat) → t.ram.read a = s.ram.read a

/-- R98, R103, R111, R117: if the accelerator completes (after `j` polls that still read busy), encrypt-hw runs to its reply
with exactly the trace of R111. That its steps are HW0 and then `8 + j`, one a label, a poll and the completion, is the model's
choice (log 8), and so is the count that places the completion among the polls (log 6). -/
def Obligations.EncryptHwTrace : Prop :=
  ∀ (s : State) (p : Block) (j : Nat),
    s.cfg.Valid → s.outcome = .running → s.accBusy = false → AccelCompletesAfter s j →
    ∃ (t u : State) (polls : List Word) (last : Word) (e : Block),
      exec (.encryptHw p) s = .next t ∧ core.run (8 + j) t = .next u ∧
      u.phase = .idle ∧ u.trig = false ∧ u.accBusy = false ∧
      polls.length = j ∧ (∀ v ∈ polls, v.getLsbD 0 = true) ∧ last.getLsbD 0 = false ∧
      u.trace = s.trace ++ (if s.keys.slot = 0#16 then [.k s.keys.material] else []) ++
        [.w (s.cfg.accBase + s.cfg.offSrc) s.cfg.bufAddr,
         .w (s.cfg.accBase + s.cfg.offDst)
           (if s.keys.slot ≠ 0#16 ∧ s.keys.dest ≠ 0#16 then s.keys.dest.setWidth 32 else s.cfg.bufAddr),
         .w (s.cfg.accBase + s.cfg.offLen) 16#32,
         .w (s.cfg.accBase + s.cfg.offParam) (s.keys.paramWord s.cfg),
         .w (s.cfg.accBase + s.cfg.offKeyslot) (s.keys.slot.setWidth 32),
         .t1,
         .w (s.cfg.accBase + s.cfg.offCmd) s.cfg.startValue,
         .start] ++
        polls.map (.r (s.cfg.accBase + s.cfg.offStatus)) ++
        [.done, .r (s.cfg.accBase + s.cfg.offStatus) last, .t0, .rep (s.cfg.statusOk :: e.toList)]

/-- R98, R108, R114, R115: where the output of an encrypt-hw goes and what its reply carries, in every case of the result mux;
the ciphertext is the one R114 and R115 give wherever the key is defined. A redirected output makes its slot's key undefined
(R42). The registers hold the descriptor of R81 and the start value, the key-input region holds the key material in host-key
mode and is untouched otherwise; the key store, the software key, every slot but a redirected output's and every byte outside
the buffer stay as they were. The `8 + j` steps are the model's choice (log 8), the completion's place among them too (log 6),
and so is that CMD still holds the start value (log 27). -/
def Obligations.EncryptHwResultMux : Prop :=
  ∀ (s : State) (p : Block) (j : Nat),
    s.cfg.Valid → s.outcome = .running → s.accBusy = false → AccelCompletesAfter s j →
    ∃ (t u : State) (e : Block),
      exec (.encryptHw p) s = .next t ∧ core.run (8 + j) t = .next u ∧
      u = { s with
        trig := false, phase := .idle, ram := u.ram, accOp := none, accWait := u.accWait, slots := u.slots, trace := u.trace,
        draws := u.draws, keyIn := if s.keys.slot = 0#16 then s.keys.material else s.keyIn,
        regs := ⟨s.cfg.bufAddr, if s.keys.slot ≠ 0#16 ∧ s.keys.dest ≠ 0#16 then s.keys.dest.setWidth 32 else s.cfg.bufAddr,
          16#32, s.keys.paramWord s.cfg, s.keys.slot.setWidth 32, s.cfg.startValue⟩ } ∧
      (s.keys.slot = 0#16 → s.keys.length = .l128 → e = aes128 (Vector.ofFn fun i => s.keys.material[i.val]) p) ∧
      (s.keys.slot = 0#16 → s.keys.length = .l256 → e = aes256 s.keys.material p) ∧
      (s.keys.slot ≠ 0#16 → s.keys.length = .l128 →
        ∀ k, cellsLookup s.slots.keys128 s.keys.slot.toNat = some k → e = aes128 k p) ∧
      (s.keys.slot ≠ 0#16 → s.keys.length = .l256 →
        ∀ k, cellsLookup s.slots.keys256 s.keys.slot.toNat = some k → e = aes256 k p) ∧
      (if s.keys.slot ≠ 0#16 ∧ s.keys.dest ≠ 0#16 then
        u.buf = p ∧ u.trace.getLast? = some (.rep (s.cfg.statusOk :: p.toList)) ∧
          cellsLookup u.slots.out s.keys.dest.toNat = some e ∧
          cellsLookup u.slots.keys128 s.keys.dest.toNat = none ∧
          cellsLookup u.slots.keys256 s.keys.dest.toNat = none ∧
          ∀ d, d ≠ s.keys.dest.toNat → cellsLookup u.slots.out d = cellsLookup s.slots.out d ∧
            cellsLookup u.slots.keys128 d = cellsLookup s.slots.keys128 d ∧
            cellsLookup u.slots.keys256 d = cellsLookup s.slots.keys256 d
      else
        u.buf = e ∧ u.trace.getLast? = some (.rep (s.cfg.statusOk :: e.toList)) ∧ u.slots = s.slots) ∧
      ∀ a, (∀ i < 16, a ≠ (s.cfg.bufAddr + BitVec.ofNat 32 i).toNat) → u.ram.read a = s.ram.read a

/-- R101: with `KeySlotId = 0` step HW1 copies all 32 bytes of key material to the key-input region, whatever the key length;
with a nonzero slot it writes nothing there. Nothing else changes but, for a busy accelerator, the model's count of CCU steps
(`tick`, log 6). -/
def Obligations.KeyCopyOnlyInHostKeyMode : Prop :=
  ∀ s : State, s.cfg.Valid → s.outcome = .running → s.accDue = false → s.phase = .execHw .hw1 →
    step s = .next (if s.keys.slot = 0#16 then
        { s.tick with keyIn := s.keys.material, trace := s.trace ++ [.k s.keys.material], phase := .execHw .hw2 }
      else { s.tick with phase := .execHw .hw2 })

/-- R112, R119: the start write. An idle accelerator latches the descriptor and the key-input region, becomes busy in the same
step and records `Start`; a start while busy is a fault, and so is a reserved descriptor: that it faults at the start write is
the model's inference (log 14, DEDUCED: the spec names the fault and not the moment). Which descriptors are reserved is
ReservedDescriptorsFault; how long the operation takes is drawn here (log 6). That CMD holds the word written is the model's
choice (log 27). -/
def Obligations.StartWriteLatchesDescriptor : Prop :=
  ∀ s : State, s.cfg.Valid → s.outcome = .running → s.accDue = false → s.phase = .execHw .hw4 →
    if s.accBusy = true then step s = .fault .startWhileBusy
    else if descriptorOk s.cfg s.regs.descriptor = false then
      step s = .fault (.unspecifiedDescriptor s.regs.descriptor)
    else ∃ t, step s = .next t ∧ t.accBusy = true ∧ t.accOp = some ⟨s.regs.descriptor, s.keyIn⟩ ∧
      t = { s with
        regs := { s.regs with cmd := s.cfg.startValue }, accOp := t.accOp, accWait := s.draws.latency, draws := t.draws,
        trace := s.trace ++ [.w (s.cfg.accBase + s.cfg.offCmd) s.cfg.startValue, .start], phase := .poll }

/-- R105, R113: one iteration of the busy-poll reads STATUS once; it stays in the loop exactly while bit 0 reads busy, and
changes nothing else but the trace (and the model's own sources of free values and of time). -/
def Obligations.BusyPollReadsStatusOnce : Prop :=
  ∀ s : State, s.cfg.Valid → s.outcome = .running → s.accDue = false → s.phase = .poll →
    ∃ (v : Word) (t : State), step s = .next t ∧ v.getLsbD 0 = s.accBusy ∧
      t = { s with
        phase := if s.accBusy = true then .poll else .execHw .hw6, draws := t.draws, accWait := t.accWait,
        trace := s.trace ++ [.r (s.cfg.accBase + s.cfg.offStatus) v] }

/-- R53, R113: a STATUS read answers `(x << 1) | AccBusy` for an unconstrained `x`, and two reads with no accelerator step
between them return the same busy bit. -/
def Obligations.StatusReadHasNoSideEffect : Prop :=
  ∀ s : State,
    (∀ x : BitVec 31, s.draws.statusBits.head? = some x → ∀ i < 31, s.statusRead.getLsbD (i + 1) = x.getLsbD i) ∧
    s.statusRead.getLsbD 0 = s.accBusy ∧ s.afterStatusRead.statusRead.getLsbD 0 = s.statusRead.getLsbD 0 ∧
    s.afterStatusRead = { s with draws := s.afterStatusRead.draws, trace := s.afterStatusRead.trace }

/-- R115: the completion step of an operation whose output is not redirected: the ciphertext goes to the 16 bytes from DST,
every other byte and the slots stay, and the accelerator is idle with `Done` recorded. -/
def Obligations.CompletionInPlace : Prop :=
  ∀ (s : State) (op : AccOp) (size : KeyLength),
    s.outcome = .running → s.accOp = some op → s.accWait = some 0 → sizeOf? s.cfg op.desc.param = some size →
    flagSet op.desc.param s.cfg.pRedirect = false →
    ∃ (t : State) (e : Block), step s = .next t ∧
      (∀ e', accCipher s.cfg s.slots op (memRead s.ram op.desc.src) size = some e' → e = e') ∧
      memRead t.ram op.desc.dst = e ∧
      (∀ a, (∀ i < 16, a ≠ (op.desc.dst + BitVec.ofNat 32 i).toNat) → t.ram.read a = s.ram.read a) ∧
      t = { s with ram := t.ram, accOp := none, draws := t.draws, trace := s.trace ++ [.done] }

/-- R42, R115: the completion step of a redirected operation: the ciphertext goes to the destination slot, which has no defined
key from then on at either size; data RAM and every other slot stay. -/
def Obligations.CompletionRedirected : Prop :=
  ∀ (s : State) (op : AccOp) (size : KeyLength),
    s.outcome = .running → s.accOp = some op → s.accWait = some 0 → sizeOf? s.cfg op.desc.param = some size →
    flagSet op.desc.param s.cfg.pRedirect = true →
    ∃ (t : State) (e : Block), step s = .next t ∧
      (∀ e', accCipher s.cfg s.slots op (memRead s.ram op.desc.src) size = some e' → e = e') ∧
      cellsLookup t.slots.out (op.desc.dst.setWidth 16).toNat = some e ∧
      cellsLookup t.slots.keys128 (op.desc.dst.setWidth 16).toNat = none ∧
      cellsLookup t.slots.keys256 (op.desc.dst.setWidth 16).toNat = none ∧
      (∀ d, d ≠ (op.desc.dst.setWidth 16).toNat → cellsLookup t.slots.out d = cellsLookup s.slots.out d ∧
        cellsLookup t.slots.keys128 d = cellsLookup s.slots.keys128 d ∧
        cellsLookup t.slots.keys256 d = cellsLookup s.slots.keys256 d) ∧
      t = { s with slots := t.slots, accOp := none, draws := t.draws, trace := s.trace ++ [.done] }

/-- R114: an AES-128 operation uses bytes 0 to 15 of the key-input region and ignores bytes 16 to 31. -/
def Obligations.Aes128IgnoresUpperKeyBytes : Prop :=
  ∀ (c : Params) (sl : Slots) (d : Descriptor) (k k' : Key256) (i : Block),
    (∀ n (h : n < 16), k[n] = k'[n]) → accCipher c sl ⟨d, k⟩ i .l128 = accCipher c sl ⟨d, k'⟩ i .l128

/-- R117, R126, R156: an accelerator that never completes leaves the CCU reading STATUS for ever: after any number of steps it
is still in the poll, every read has seen busy, the trigger line is as it was, which is high where it had the level of its
phase (R124), and no other event was recorded. A step is one read (log 8). -/
def Obligations.StuckAcceleratorHangs : Prop :=
  ∀ (n : Nat) (s : State),
    s.cfg.Valid → s.outcome = .running → s.phase = .poll → s.accBusy = true → s.accWait = none →
    ∃ (t : State) (reads : List Word), core.run n s = .next t ∧
      reads.length = n ∧ (∀ v ∈ reads, v.getLsbD 0 = true) ∧
      t = { s with draws := t.draws, trace := s.trace ++ reads.map (.r (s.cfg.accBase + s.cfg.offStatus)) } ∧
      (TrigWindow s → t.trig = true)

/-! ## encrypt-sw -/

/-- R128: encrypt-sw runs to its reply in five steps: AES-128 under the software key at L128 (some 16 bytes where there is no
software key), the block unchanged at L256, framed by one trigger pulse; the reply is what the buffer holds, and nothing
outside the buffer changes. The step counts are the model's choice (log 8). -/
def Obligations.EncryptSwCompletes : Prop :=
  ∀ (s : State) (p : Block), s.outcome = .running → s.accBusy = false →
    ∃ (t u : State) (e : Block),
      exec (.encryptSw p) s = .next t ∧ core.run 4 t = .next u ∧
      (s.keys.length = .l256 → e = p) ∧
      (s.keys.length = .l128 → ∀ k, s.swKey = some k → e = aes128 k p) ∧
      u.buf = e ∧
      (∀ a, (∀ i < 16, a ≠ (s.cfg.bufAddr + BitVec.ofNat 32 i).toNat) → u.ram.read a = s.ram.read a) ∧
      u = { s with
        trig := false, phase := .idle, ram := u.ram, draws := u.draws,
        trace := s.trace ++ [.t1, .t0, .rep (s.cfg.statusOk :: e.toList)] }

/-- R130: in host-key mode at L128, with the software key the first 16 bytes of the key material, encrypt-hw and encrypt-sw
reply the same 16 bytes `AES128(KeyMaterial[0..15], P)`. The step counts are the model's choice (log 8), the completion's place
among the polls too (log 6). -/
def Obligations.HardwareAndSoftwareAgree : Prop :=
  ∀ (s : State) (p k : Block) (j : Nat),
    s.cfg.Valid → s.outcome = .running → s.accBusy = false → AccelCompletesAfter s j →
    s.keys.slot = 0#16 → s.keys.length = .l128 → s.swKey = some k → (∀ i (h : i < 16), k[i] = s.keys.material[i]) →
    ∃ t u t' u' : State,
      exec (.encryptHw p) s = .next t ∧ core.run (8 + j) t = .next u ∧
      exec (.encryptSw p) s = .next t' ∧ core.run 4 t' = .next u' ∧
      u.trace.getLast? = some (.rep (s.cfg.statusOk :: (aes128 k p).toList)) ∧
      u'.trace.getLast? = some (.rep (s.cfg.statusOk :: (aes128 k p).toList))

/-! ## The trigger -/

/-- R122: a step changes the trigger line only as part of a framed command. -/
def Obligations.OnlyFramedCommandsDriveTrigger : Prop :=
  ∀ s t : State, step s = .next t → t.trig ≠ s.trig →
    s.phase = .execHw .hw3 ∨ s.phase = .execHw .hw6 ∨
    (∃ p, s.phase = .execSw p .sw1 ∨ s.phase = .execSw p .sw3) ∨ (∃ c, s.phase = .execCalib c .c3) ∨
    (∃ i, s.phase = .execFirst i ∧ (i.command = .calibNop ∨ i.command = .calibDiv))

/-- R120, R121, R123, R125: trigger frames never nest and never overlap: if the trace so far opens and closes frames in turn and
the line has the level of its phase, so does every step. -/
def Obligations.TriggerFramesAlternate : Prop :=
  ∀ s t : State, TrigWindow s → TraceFramed s → step s = .next t → TrigWindow t ∧ TraceFramed t

/-! ## Calibration -/

/-- R145, R146, R147: calib-nop runs exactly `n` iterations inside one trigger pulse and then replies, for every 32-bit count;
after `m` of them `n - m` are left; the reply is the status byte (R66). Nothing else changes. The step counts are the model's
choice (log 8). -/
def Obligations.CalibNopCompletes : Prop :=
  ∀ (n : Word) (s : State), s.outcome = .running → s.accBusy = false →
    ∃ t, exec (.calibNop n) s = .next t ∧
      (∀ m ≤ n.toNat, core.run m t = .next { s with
        trig := true, phase := .loop .nop (n - BitVec.ofNat 32 m), trace := s.trace ++ [.t1] }) ∧
      core.run (n.toNat + 3) t = .next { s with
        trig := false, phase := .idle,
        trace := s.trace ++ [.t1, .t0] ++ (if s.cfg.ackNoData = true then [.rep [s.cfg.statusOk]] else []) }

/-- R145, R146, R148: the same of calib-div, with the same step counts (log 8). -/
def Obligations.CalibDivCompletes : Prop :=
  ∀ (n : Word) (s : State), s.outcome = .running → s.accBusy = false →
    ∃ t, exec (.calibDiv n) s = .next t ∧
      (∀ m ≤ n.toNat, core.run m t = .next { s with
        trig := true, phase := .loop .div (n - BitVec.ofNat 32 m), trace := s.trace ++ [.t1] }) ∧
      core.run (n.toNat + 3) t = .next { s with
        trig := false, phase := .idle,
        trace := s.trace ++ [.t1, .t0] ++ (if s.cfg.ackNoData = true then [.rep [s.cfg.statusOk]] else []) }

/-! ## Memory -/

/-- R16, R50: a 16-byte read returns what a 16-byte write stored at the same address, and the write leaves every other byte
alone. -/
def Obligations.BlockReadAfterWrite : Prop :=
  ∀ (m : Memory) (a : Word) (b : Block),
    memRead (memWrite m a b) a = b ∧
    (∀ i (h : i < 16), (memWrite m a b).read (a + BitVec.ofNat 32 i).toNat = b[i]) ∧
    ∀ x, (∀ i < 16, x ≠ (a + BitVec.ofNat 32 i).toNat) → (memWrite m a b).read x = m.read x

/-- The model's canonical form of data RAM (log 13) is kept by every step. -/
def Obligations.CanonicalMemoryKept : Prop :=
  ∀ s t : State, s.ram.wf → step s = .next t → t.ram.wf

/-- R61, R62, R99, R118: from a state of the invariant no step writes a byte of data RAM outside the block buffer. -/
def Obligations.OnlyBufferIsWritten : Prop :=
  ∀ s t : State, Inv s → step s = .next t →
    ∀ a, (∀ i < 16, a ≠ (s.cfg.bufAddr + BitVec.ofNat 32 i).toNat) → t.ram.read a = s.ram.read a

/-- R48: under `TARGET_LE` the byte at the access's address is bits 7:0 of the word and the byte three above it bits 31:24. -/
def Obligations.BusIsLittleEndian : Prop :=
  ∀ (c : Params) (v : Word), c.targetLe = true →
    busByte c v 0 = v.extractLsb' 0 8 ∧ busByte c v 3 = v.extractLsb' 24 8

/-! ## The whole machine -/

/-- The invariant holds after power-on. -/
def Obligations.InvAtReset : Prop := Inv State.reset

/-- R55, R81, R101, R112, R124, R125, R175, R178, over every state of the invariant: no operation is in flight outside the
busy-poll, the registers and the key-input region hold this command's descriptor and key before the start write, the operation
in flight is the one the key store describes, the trigger is high exactly inside a frame, the trace's frames alternate, memory
is canonical, and a command at its first step has passed the checks of R159; and every step keeps all of it. -/
def Obligations.StepKeepsInv : Prop := ∀ s t : State, Inv s → step s = .next t → Inv t

/-- R12: the machine's own parameters meet every constraint, and no step changes the parameters of any machine. -/
def Obligations.ParametersAreFixed : Prop :=
  Config.params.Valid ∧ ∀ s t : State, step s = .next t → t.cfg = s.cfg

/-- R170: what power-on leaves, for every piece of state the spec gives a value. -/
def Obligations.PowerOnState : Prop :=
  State.reset.keys = ⟨Vector.replicate 32 0#8, .l128, 0#16, 0#16⟩ ∧ State.reset.swKey = none ∧ State.reset.trig = false ∧
    State.reset.phase = .idle ∧ State.reset.outcome = .running ∧ State.reset.accBusy = false ∧
    State.reset.accOp = none ∧ State.reset.slots.out = [] ∧
    State.reset.slots.keys128 = State.reset.cfg.slotKeys128 ∧ State.reset.slots.keys256 = State.reset.cfg.slotKeys256

/-! ## AES -/

/-- R132: the S-box table is the affine transform of the multiplicative inverse. -/
def Obligations.SboxIsAffineOfInverse : Prop :=
  ∀ a : Byte, ∃ b : Byte, (a = 0#8 → b = 0#8) ∧ (a ≠ 0#8 → gmul a b = 1#8) ∧ sbox a = affine b

/-- R139, R140: the key schedules have 44 and 60 words, begin with the key, and follow their recurrences at every word. -/
def Obligations.KeySchedulesFollowRecurrence : Prop :=
  (∀ k : Block, (keyExpansion128 k).length = 44 ∧
    (∀ j (h : j < 4), (keyExpansion128 k).getD j zeroWord = #v[k[4 * j], k[4 * j + 1], k[4 * j + 2], k[4 * j + 3]]) ∧
    ∀ j, 4 ≤ j → j < 44 →
      (keyExpansion128 k).getD j zeroWord = xorWord ((keyExpansion128 k).getD (j - 4) zeroWord)
        (if j % 4 = 0 then xorWord (subWord (rotWord ((keyExpansion128 k).getD (j - 1) zeroWord))) (rconWord (j / 4))
         else (keyExpansion128 k).getD (j - 1) zeroWord)) ∧
  (∀ k : Key256, (keyExpansion256 k).length = 60 ∧
    (∀ j (h : j < 8), (keyExpansion256 k).getD j zeroWord = #v[k[4 * j], k[4 * j + 1], k[4 * j + 2], k[4 * j + 3]]) ∧
    ∀ j, 8 ≤ j → j < 60 →
      (keyExpansion256 k).getD j zeroWord = xorWord ((keyExpansion256 k).getD (j - 8) zeroWord)
        (if j % 8 = 0 then xorWord (subWord (rotWord ((keyExpansion256 k).getD (j - 1) zeroWord))) (rconWord (j / 8))
         else if j % 8 = 4 then subWord ((keyExpansion256 k).getD (j - 1) zeroWord)
         else (keyExpansion256 k).getD (j - 1) zeroWord))

/-- R131, R135: the field product distributes over XOR in its first argument, and row `r` of ShiftRows rotates left by `r`. -/
def Obligations.FieldAndRowLaws : Prop :=
  (∀ a b c : Byte, gmul (a ^^^ b) c = gmul a c ^^^ gmul b c) ∧
  ∀ (s : Block) (r c : Nat) (_ : r < 4) (_ : c < 4), (shiftRows s)[r + 4 * c] = s[r + 4 * ((c + r) % 4)]

/-- R131: the field product is the sum of `xtime^i` of its first argument over the bits set in its second, and `xtime` reduces by
the polynomial. R138: the round constants and the two word operations of the key schedules. -/
def Obligations.FieldAndScheduleParts : Prop :=
  (∀ a b c : Byte, gmul a (b ^^^ c) = gmul a b ^^^ gmul a c) ∧
  (∀ (a : Byte) (i : Nat), i < 8 → gmul a (1#8 <<< i) = Nat.repeat xtime i a) ∧
  (∀ a : Byte, xtime a = (a <<< 1) ^^^ (if a.getLsbD 7 then 0x1b#8 else 0#8)) ∧
  rcon 1 = 0x01#8 ∧ (∀ i, 1 ≤ i → rcon (i + 1) = xtime (rcon i)) ∧
  ∀ t : AesWord, rotWord t = #v[t[1], t[2], t[3], t[0]] ∧ subWord t = #v[sbox t[0], sbox t[1], sbox t[2], sbox t[3]]

/-- R133, R134, R136, R137, R141 to R143: the steps of a round byte by byte, and the cipher as its rounds: AddRoundKey 0, then
SubBytes, ShiftRows, MixColumns and AddRoundKey for rounds 1 to `Nr - 1`, then a last round without MixColumns. (ShiftRows, R135,
is the subject of FieldAndRowLaws.) -/
def Obligations.CipherFollowsRounds : Prop :=
  (∀ (s : Block) (i : Nat) (_ : i < 16), (subBytes s)[i] = sbox s[i]) ∧
  (∀ (s : Block) (c : Nat) (_ : c < 4),
    (mixColumns s)[0 + 4 * c] = gmul s[0 + 4 * c] 2#8 ^^^ gmul s[1 + 4 * c] 3#8 ^^^ s[2 + 4 * c] ^^^ s[3 + 4 * c] ∧
    (mixColumns s)[1 + 4 * c] = s[0 + 4 * c] ^^^ gmul s[1 + 4 * c] 2#8 ^^^ gmul s[2 + 4 * c] 3#8 ^^^ s[3 + 4 * c] ∧
    (mixColumns s)[2 + 4 * c] = s[0 + 4 * c] ^^^ s[1 + 4 * c] ^^^ gmul s[2 + 4 * c] 2#8 ^^^ gmul s[3 + 4 * c] 3#8 ∧
    (mixColumns s)[3 + 4 * c] = gmul s[0 + 4 * c] 3#8 ^^^ s[1 + 4 * c] ^^^ s[2 + 4 * c] ^^^ gmul s[3 + 4 * c] 2#8) ∧
  (∀ (w : List AesWord) (s : Block) (r i : Nat) (_ : i < 16),
    (addRoundKey w s r)[i] = s[i] ^^^ (w.getD (4 * r + i / 4) zeroWord)[i % 4]) ∧
  (∀ (w : List AesWord) (n : Nat) (p : Block),
    cipher w (n + 1) p = addRoundKey w (shiftRows (subBytes
      ((List.range' 1 n).foldl (fun s r => addRoundKey w (mixColumns (shiftRows (subBytes s))) r) (addRoundKey w p 0)))) (n + 1)) ∧
  (∀ k p : Block, aes128 k p = cipher (keyExpansion128 k) 10 p) ∧
  ∀ (k : Key256) (p : Block), aes256 k p = cipher (keyExpansion256 k) 14 p

/-! ## The order of steps and the reserved descriptors -/

/-- R29, R83 to R85: a step takes bytes off the wire, or enters the first step of a command, only at the head of the service
loop, by taking one whole frame of a command that passes its checks (R159), and it then changes nothing else. (`accWait` is the
model's count of CCU steps for a busy accelerator, log 6.) -/
def Obligations.CommandsComeFromTheWire : Prop :=
  ∀ s t : State, step s = .next t → (t.inbox ≠ s.inbox ∨ ∃ i, t.phase = .execFirst i ∧ s.phase ≠ .execFirst i) →
    s.phase = .idle ∧ ∃ i rest, decode s.cfg s.inbox = .frame i rest ∧
      WellFormed i = true ∧ debugMnemonic i.command = none ∧
      t = { s with phase := .execFirst i, inbox := rest, accWait := t.accWait }

/-- R29, R98, R128, R145, R147, R148: the steps of a command are taken in the order its rule lists them. From every state in which
an operation is in flight only during the busy-poll, the phase after a step that goes on is the one the rule puts next: a whole
frame at the head of the loop, the command's own first label, the next label, the same poll while the accelerator is busy, one
iteration less, and the head of the loop after the last label. -/
def Obligations.StepsFollowTheRulesOrder : Prop :=
  ∀ s t : State, OneOperation s → step s = .next t →
    match s.phase with
    | .idle => t.phase = .idle ∨ ∃ i, t.phase = .execFirst i
    | .execFirst (.encryptHw _) => t.phase = .execHw .hw1
    | .execFirst (.encryptSw p) => t.phase = .execSw p .sw1
    | .execFirst (.calibNop n) => t.phase = .loop .nop n
    | .execFirst (.calibDiv n) => t.phase = .loop .div n
    | .execFirst i => t.phase = .idle ∧ i.command ∈ keyCommands
    | .execHw .hw1 => t.phase = .execHw .hw2
    | .execHw .hw2 => t.phase = .execHw .hw3
    | .execHw .hw3 => t.phase = .execHw .hw4
    | .execHw .hw4 => t.phase = .poll
    | .poll => t.phase = if s.accBusy = true then .poll else .execHw .hw6
    | .execHw .hw6 => t.phase = .execHw .hw7
    | .execHw .hw7 => t.phase = .idle
    | .execSw p .sw1 => t.phase = .execSw p .sw2
    | .execSw p .sw2 => t.phase = .execSw p .sw3
    | .execSw p .sw3 => t.phase = .execSw p .sw4
    | .execSw _ .sw4 => t.phase = .idle
    | .loop c i => t.phase = if i = 0#32 then .execCalib c .c3 else .loop c (i - 1#32)
    | .execCalib c .c3 => t.phase = .execCalib c .c4
    | .execCalib _ .c4 => t.phase = .idle

/-- R82, R119, R158: which descriptors are reserved, spelled out, and that exactly these fault `UnspecifiedDescriptor`: a length
other than 16, a size code other than the two, the base flag clear, the host-key and the redirect flag both set, a PARAM bit
outside the named fields, a KEYSLOT or a redirected DST above 16 bits. A write of a value other than `START_VALUE` to CMD is the
same fault. The list is R82's with R119's, and that the fault comes at the start write is the model's inference (log 14,
DEDUCED). -/
def Obligations.ReservedDescriptorsFault : Prop :=
  (∀ s : State, s.cfg.Valid → s.outcome = .running → s.accBusy = false → s.phase = .execHw .hw4 →
    (step s = .fault (.unspecifiedDescriptor s.regs.descriptor) ↔
      s.regs.len ≠ 16#32 ∨
      ((s.regs.param >>> s.cfg.ksizeShift.val) &&& 3#32 ≠ s.cfg.ksize128.setWidth 32 ∧
        (s.regs.param >>> s.cfg.ksizeShift.val) &&& 3#32 ≠ s.cfg.ksize256.setWidth 32) ∨
      s.regs.param &&& s.cfg.pBase = 0#32 ∨
      (s.regs.param &&& s.cfg.pHostkey ≠ 0#32 ∧ s.regs.param &&& s.cfg.pRedirect ≠ 0#32) ∨
      s.regs.param &&& ~~~(s.cfg.pBase ||| s.cfg.pHostkey ||| s.cfg.pRedirect ||| (3#32 <<< s.cfg.ksizeShift.val)) ≠ 0#32 ∨
      2 ^ 16 ≤ s.regs.keyslot.toNat ∨
      (s.regs.param &&& s.cfg.pRedirect ≠ 0#32 ∧ 2 ^ 16 ≤ s.regs.dst.toNat))) ∧
  ∀ (s : State) (v : Word), s.cfg.Valid → v ≠ s.cfg.startValue →
    busWrite32 .cmd v s = .fault (.unspecifiedDescriptor s.regs.descriptor)
end

