-- ==== Sys2Proof/Laws/Cells.lean ====
section
/-! SUPPORT. The laws of the sparse maps: what a lookup finds after an insertion or an erasure, and that both keep the
canonical form. -/

namespace Sys2Proof.Machine

variable {β : Type}

theorem cellsLookup_insert_self (m : List (Nat × β)) (a : Nat) (b : β) :
    cellsLookup (cellsInsert m a b) a = some b := by
  induction m with
  | nil => simp [cellsInsert, cellsLookup]
  | cons c rest ih =>
    obtain ⟨k, v⟩ := c
    unfold cellsInsert
    split
    · simp [cellsLookup]
    · split
      · simp [cellsLookup]
      · rename_i h
        simp [cellsLookup, h, ih]

theorem cellsLookup_insert_other (m : List (Nat × β)) {a a' : Nat} (b : β) (h : a' ≠ a) :
    cellsLookup (cellsInsert m a b) a' = cellsLookup m a' := by
  induction m with
  | nil => simp [cellsInsert, cellsLookup, h]
  | cons c rest ih =>
    obtain ⟨k, v⟩ := c
    unfold cellsInsert
    split
    · simp [cellsLookup, h]
    · split
      · rename_i hk
        subst hk
        simp [cellsLookup, h]
      · simp [cellsLookup, ih]

theorem cellsLookup_erase (m : List (Nat × β)) (a a' : Nat) :
    cellsLookup (cellsErase m a) a' = if a' = a then none else cellsLookup m a' := by
  induction m with
  | nil => simp [cellsErase, cellsLookup]
  | cons c rest ih =>
    obtain ⟨k, v⟩ := c
    simp only [cellsErase] at ih ⊢
    by_cases hk : k = a
    · subst hk
      rw [List.filter_cons_of_neg (by simp), ih]
      by_cases h : a' = k <;> simp [h, cellsLookup]
    · rw [List.filter_cons_of_pos (by simpa using hk)]
      by_cases h : a' = k
      · subst h
        simp [cellsLookup, hk]
      · simp [cellsLookup, h, ih]

theorem cellsInsert_keys (m : List (Nat × β)) (a : Nat) (b : β) :
    ∀ c ∈ cellsInsert m a b, c.1 = a ∨ c ∈ m := by
  induction m with
  | nil => simp [cellsInsert]
  | cons d rest ih =>
    obtain ⟨k, v⟩ := d
    intro c hc
    unfold cellsInsert at hc
    split at hc
    · simpa [or_iff_not_imp_left] using List.mem_cons.1 hc |>.imp (fun h => by simp [h]) id
    · split at hc
      · rcases List.mem_cons.1 hc with h | h
        · simp [h]
        · simp [h]
      · rcases List.mem_cons.1 hc with h | h
        · simp [h]
        · rcases ih c h with h | h <;> simp [h]

theorem cellsInsert_wf {bound : Nat} {m : List (Nat × β)} (h : cellsWf bound m) {a : Nat} (ha : a < bound) (b : β) :
    cellsWf bound (cellsInsert m a b) := by
  refine ⟨?_, fun c hc => ?_⟩
  · have hp := h.1
    clear h ha
    induction m with
    | nil => simp [cellsInsert]
    | cons d rest ih =>
      obtain ⟨k, v⟩ := d
      rw [List.pairwise_cons] at hp
      unfold cellsInsert
      split
      · rename_i hlt
        refine List.pairwise_cons.2 ⟨fun c hc => ?_, List.pairwise_cons.2 hp⟩
        rcases List.mem_cons.1 hc with h | h
        · simpa [h] using hlt
        · exact Nat.lt_trans hlt (hp.1 c h)
      · split
        · rename_i hk
          subst hk
          exact List.pairwise_cons.2 hp
        · refine List.pairwise_cons.2 ⟨fun c hc => ?_, ih hp.2⟩
          rcases cellsInsert_keys rest a b c hc with h | h
          · simp only [h]
            omega
          · exact hp.1 c h
  · rcases cellsInsert_keys m a b c hc with h' | h'
    · rw [h']
      exact ha
    · exact h.2 c h'

theorem cellsErase_wf {bound : Nat} {m : List (Nat × β)} (h : cellsWf bound m) (a : Nat) :
    cellsWf bound (cellsErase m a) :=
  ⟨h.1.filter _, fun c hc => h.2 c (List.mem_filter.1 hc).1⟩

end Sys2Proof.Machine
end

