-- ==== Sys2Proof/Laws/Decode.lean ====
section
/-! SUPPORT. The byte-order and field lemmas of the decoder and encoder. -/

namespace Sys2Proof

theorem be16_bytes (v : BitVec 16) : be16 ((v >>> 8).setWidth 8) (v.setWidth 8) = v := by
  ext i hi
  simp only [be16, BitVec.getElem_or, BitVec.getElem_shiftLeft, BitVec.getElem_setWidth, BitVec.getLsbD_setWidth,
    BitVec.getLsbD_ushiftRight]
  by_cases h : i < 8
  · simp [h, BitVec.getLsbD_eq_getElem hi]
  · have h8 : i - 8 < 8 := by omega
    simp [h, h8, show 8 + (i - 8) = i by omega, BitVec.getLsbD_eq_getElem hi]

theorem be32_bytes (v : Word) :
    be32 ((v >>> 24).setWidth 8) ((v >>> 16).setWidth 8) ((v >>> 8).setWidth 8) (v.setWidth 8) = v := by
  apply BitVec.eq_of_toNat_eq
  have hv := v.isLt
  simp only [be32, BitVec.toNat_or, BitVec.toNat_shiftLeft, BitVec.toNat_setWidth, BitVec.toNat_ushiftRight]
  apply Nat.eq_of_testBit_eq
  intro i
  simp only [Nat.testBit_or, Nat.testBit_mod_two_pow, Nat.testBit_shiftLeft, Nat.testBit_shiftRight]
  by_cases h32 : i < 32
  · by_cases h8 : i < 8
    · simp [h8, h32, show ¬ 8 ≤ i by omega, show ¬ 16 ≤ i by omega, show ¬ 24 ≤ i by omega]
    · by_cases h16 : i < 16
      · simp [h8, h32, show 8 ≤ i by omega, show ¬ 16 ≤ i by omega, show ¬ 24 ≤ i by omega,
          show i - 8 < 8 by omega, show i - 8 < 32 by omega, show 8 + (i - 8) = i by omega]
      · by_cases h24 : i < 24
        · simp [h8, h32, show 8 ≤ i by omega, show 16 ≤ i by omega, show ¬ 24 ≤ i by omega,
            show ¬ i - 8 < 8 by omega, show i - 16 < 8 by omega, show i - 16 < 32 by omega, show 16 + (i - 16) = i by omega]
        · simp [h8, h32, show 8 ≤ i by omega, show 16 ≤ i by omega, show 24 ≤ i by omega,
            show ¬ i - 8 < 8 by omega, show ¬ i - 16 < 8 by omega, show i - 24 < 8 by omega, show i - 24 < 32 by omega,
            show 24 + (i - 24) = i by omega]
  · have : v.toNat.testBit i = false := Nat.testBit_lt_two_pow (Nat.lt_of_lt_of_le hv (Nat.pow_le_pow_right (by omega) (by omega)))
    simp [h32, this, show ¬ i < 8 by omega]

/-- The two bytes of `be16` are its arguments. -/
theorem bytes16_be16 (x y : Byte) : bytes16 (be16 x y) = [x, y] := by
  simp only [bytes16, be16, List.cons.injEq, and_true]
  constructor
  · ext i hi
    simp [hi, show 8 + i < 16 by omega]
  · ext i hi
    simp

/-- The four bytes of `be32` are its arguments. -/
theorem bytes32_be32 (w x y z : Byte) : bytes32 (be32 w x y z) = [w, x, y, z] := by
  simp only [bytes32, be32, List.cons.injEq, and_true]
  refine ⟨?_, ?_, ?_, ?_⟩
  · ext i hi
    simp [hi, show 24 + i < 32 by omega, show ¬ 24 + i < 16 by omega, show ¬ 24 + i < 8 by omega,
      BitVec.getLsbD_of_ge x (24 + i - 16) (by omega), BitVec.getLsbD_of_ge y (24 + i - 8) (by omega),
      BitVec.getLsbD_of_ge z (24 + i) (by omega)]
  · ext i hi
    simp [hi, show 16 + i < 32 by omega, show 16 + i < 24 by omega, show ¬ 16 + i < 8 by omega,
      BitVec.getLsbD_of_ge y (16 + i - 8) (by omega), BitVec.getLsbD_of_ge z (16 + i) (by omega)]
  · ext i hi
    simp [hi, show 8 + i < 32 by omega, show 8 + i < 24 by omega, show 8 + i < 16 by omega]
  · ext i hi
    simp

theorem paramBlock_toList (k : Block) : paramBlock k.toList = k := by
  ext i hi
  simp [paramBlock, paramByte]

theorem paramKey256_toList (k : Key256) : paramKey256 k.toList = k := by
  ext i hi
  simp [paramKey256, paramByte]

theorem toList_paramBlock (p : List Byte) (h : p.length = 16) : (paramBlock p).toList = p := by
  apply List.ext_getElem
  · simp [h]
  · intro i h1 h2
    simp [paramBlock, paramByte, h2]

theorem toList_paramKey256 (p : List Byte) (h : p.length = 32) : (paramKey256 p).toList = p := by
  apply List.ext_getElem
  · simp [h]
  · intro i h1 h2
    simp [paramKey256, paramByte, h2]

/-- A command found by its opcode byte has that opcode byte. -/
theorem opcode_of_commandOf {c : Params} {op : Byte} {cmd : Command} (h : c.commandOf op = some cmd) :
    c.opcode cmd = op := by
  have := List.find?_some h
  simpa using this

/-- Every command is in the list of R64. -/
theorem mem_allCommands (cmd : Command) : cmd ∈ allCommands := by cases cmd <;> decide

/-- With distinct opcode bytes each command is found by its own (R86). -/
theorem commandOf_opcode {c : Params} (h : c.opcodesDistinct) (cmd : Command) :
    c.commandOf (c.opcode cmd) = some cmd := by
  cases hf : c.commandOf (c.opcode cmd) with
  | none =>
    have := List.find?_eq_none.1 hf cmd (mem_allCommands cmd)
    simp at this
  | some cmd' =>
    have he := opcode_of_commandOf hf
    exact congrArg some (List.inj_on_of_nodup_map h (mem_allCommands cmd') (mem_allCommands cmd) he)

/-- The decoder's answer on an opcode byte that names a command and enough bytes after it (R65). -/
theorem decode_frame {c : Params} {op : Byte} {cmd : Command} (h : c.commandOf op = some cmd) (p rest : List Byte)
    (hp : p.length = cmd.paramLength) : decode c (op :: (p ++ rest)) = .frame (cmd.build p) rest := by
  simp [decode, h, ← hp]

/-- What the decoder has read when it answers a frame (R65). -/
theorem decode_frame_cases {c : Params} {bytes : List Byte} {i : Instr} {rest : List Byte}
    (h : decode c bytes = .frame i rest) :
    ∃ op cmd p, bytes = op :: (p ++ rest) ∧ c.commandOf op = some cmd ∧ p.length = cmd.paramLength ∧
      i = cmd.build p := by
  cases bytes with
  | nil => simp [decode] at h
  | cons op tl =>
    simp only [decode] at h
    split at h
    · simp at h
    · rename_i cmd hc
      split at h
      · simp at h
      · rename_i hl
        simp only [DecodeResult.frame.injEq] at h
        exact ⟨op, cmd, tl.take cmd.paramLength, by rw [← h.2, List.take_append_drop], hc, by simp; omega, h.1.symm⟩

end Sys2Proof
end

