-- ==== Sys2Proof/Laws/State.lean ====
section
/-! SUPPORT. What each field update does to each field. -/

namespace Sys2Proof.Machine

@[simp] theorem State.setKeys_cfg (s : State) (v : KeyStore) : (s.setKeys v).cfg = s.cfg := rfl
@[simp] theorem State.setKeys_keys (s : State) (v : KeyStore) : (s.setKeys v).keys = v := rfl
@[simp] theorem State.setKeys_swKey (s : State) (v : KeyStore) : (s.setKeys v).swKey = s.swKey := rfl
@[simp] theorem State.setKeys_trig (s : State) (v : KeyStore) : (s.setKeys v).trig = s.trig := rfl
@[simp] theorem State.setKeys_phase (s : State) (v : KeyStore) : (s.setKeys v).phase = s.phase := rfl
@[simp] theorem State.setKeys_outcome (s : State) (v : KeyStore) : (s.setKeys v).outcome = s.outcome := rfl
@[simp] theorem State.setKeys_ram (s : State) (v : KeyStore) : (s.setKeys v).ram = s.ram := rfl
@[simp] theorem State.setKeys_regs (s : State) (v : KeyStore) : (s.setKeys v).regs = s.regs := rfl
@[simp] theorem State.setKeys_keyIn (s : State) (v : KeyStore) : (s.setKeys v).keyIn = s.keyIn := rfl
@[simp] theorem State.setKeys_accOp (s : State) (v : KeyStore) : (s.setKeys v).accOp = s.accOp := rfl
@[simp] theorem State.setKeys_accWait (s : State) (v : KeyStore) : (s.setKeys v).accWait = s.accWait := rfl
@[simp] theorem State.setKeys_slots (s : State) (v : KeyStore) : (s.setKeys v).slots = s.slots := rfl
@[simp] theorem State.setKeys_inbox (s : State) (v : KeyStore) : (s.setKeys v).inbox = s.inbox := rfl
@[simp] theorem State.setKeys_trace (s : State) (v : KeyStore) : (s.setKeys v).trace = s.trace := rfl
@[simp] theorem State.setKeys_draws (s : State) (v : KeyStore) : (s.setKeys v).draws = s.draws := rfl

@[simp] theorem State.setSwKey_cfg (s : State) (v : Option Block) : (s.setSwKey v).cfg = s.cfg := rfl
@[simp] theorem State.setSwKey_keys (s : State) (v : Option Block) : (s.setSwKey v).keys = s.keys := rfl
@[simp] theorem State.setSwKey_swKey (s : State) (v : Option Block) : (s.setSwKey v).swKey = v := rfl
@[simp] theorem State.setSwKey_trig (s : State) (v : Option Block) : (s.setSwKey v).trig = s.trig := rfl
@[simp] theorem State.setSwKey_phase (s : State) (v : Option Block) : (s.setSwKey v).phase = s.phase := rfl
@[simp] theorem State.setSwKey_outcome (s : State) (v : Option Block) : (s.setSwKey v).outcome = s.outcome := rfl
@[simp] theorem State.setSwKey_ram (s : State) (v : Option Block) : (s.setSwKey v).ram = s.ram := rfl
@[simp] theorem State.setSwKey_regs (s : State) (v : Option Block) : (s.setSwKey v).regs = s.regs := rfl
@[simp] theorem State.setSwKey_keyIn (s : State) (v : Option Block) : (s.setSwKey v).keyIn = s.keyIn := rfl
@[simp] theorem State.setSwKey_accOp (s : State) (v : Option Block) : (s.setSwKey v).accOp = s.accOp := rfl
@[simp] theorem State.setSwKey_accWait (s : State) (v : Option Block) : (s.setSwKey v).accWait = s.accWait := rfl
@[simp] theorem State.setSwKey_slots (s : State) (v : Option Block) : (s.setSwKey v).slots = s.slots := rfl
@[simp] theorem State.setSwKey_inbox (s : State) (v : Option Block) : (s.setSwKey v).inbox = s.inbox := rfl
@[simp] theorem State.setSwKey_trace (s : State) (v : Option Block) : (s.setSwKey v).trace = s.trace := rfl
@[simp] theorem State.setSwKey_draws (s : State) (v : Option Block) : (s.setSwKey v).draws = s.draws := rfl

@[simp] theorem State.setTrig_cfg (s : State) (v : Bool) : (s.setTrig v).cfg = s.cfg := rfl
@[simp] theorem State.setTrig_keys (s : State) (v : Bool) : (s.setTrig v).keys = s.keys := rfl
@[simp] theorem State.setTrig_swKey (s : State) (v : Bool) : (s.setTrig v).swKey = s.swKey := rfl
@[simp] theorem State.setTrig_trig (s : State) (v : Bool) : (s.setTrig v).trig = v := rfl
@[simp] theorem State.setTrig_phase (s : State) (v : Bool) : (s.setTrig v).phase = s.phase := rfl
@[simp] theorem State.setTrig_outcome (s : State) (v : Bool) : (s.setTrig v).outcome = s.outcome := rfl
@[simp] theorem State.setTrig_ram (s : State) (v : Bool) : (s.setTrig v).ram = s.ram := rfl
@[simp] theorem State.setTrig_regs (s : State) (v : Bool) : (s.setTrig v).regs = s.regs := rfl
@[simp] theorem State.setTrig_keyIn (s : State) (v : Bool) : (s.setTrig v).keyIn = s.keyIn := rfl
@[simp] theorem State.setTrig_accOp (s : State) (v : Bool) : (s.setTrig v).accOp = s.accOp := rfl
@[simp] theorem State.setTrig_accWait (s : State) (v : Bool) : (s.setTrig v).accWait = s.accWait := rfl
@[simp] theorem State.setTrig_slots (s : State) (v : Bool) : (s.setTrig v).slots = s.slots := rfl
@[simp] theorem State.setTrig_inbox (s : State) (v : Bool) : (s.setTrig v).inbox = s.inbox := rfl
@[simp] theorem State.setTrig_trace (s : State) (v : Bool) : (s.setTrig v).trace = s.trace := rfl
@[simp] theorem State.setTrig_draws (s : State) (v : Bool) : (s.setTrig v).draws = s.draws := rfl

@[simp] theorem State.setPhase_cfg (s : State) (v : Phase) : (s.setPhase v).cfg = s.cfg := rfl
@[simp] theorem State.setPhase_keys (s : State) (v : Phase) : (s.setPhase v).keys = s.keys := rfl
@[simp] theorem State.setPhase_swKey (s : State) (v : Phase) : (s.setPhase v).swKey = s.swKey := rfl
@[simp] theorem State.setPhase_trig (s : State) (v : Phase) : (s.setPhase v).trig = s.trig := rfl
@[simp] theorem State.setPhase_phase (s : State) (v : Phase) : (s.setPhase v).phase = v := rfl
@[simp] theorem State.setPhase_outcome (s : State) (v : Phase) : (s.setPhase v).outcome = s.outcome := rfl
@[simp] theorem State.setPhase_ram (s : State) (v : Phase) : (s.setPhase v).ram = s.ram := rfl
@[simp] theorem State.setPhase_regs (s : State) (v : Phase) : (s.setPhase v).regs = s.regs := rfl
@[simp] theorem State.setPhase_keyIn (s : State) (v : Phase) : (s.setPhase v).keyIn = s.keyIn := rfl
@[simp] theorem State.setPhase_accOp (s : State) (v : Phase) : (s.setPhase v).accOp = s.accOp := rfl
@[simp] theorem State.setPhase_accWait (s : State) (v : Phase) : (s.setPhase v).accWait = s.accWait := rfl
@[simp] theorem State.setPhase_slots (s : State) (v : Phase) : (s.setPhase v).slots = s.slots := rfl
@[simp] theorem State.setPhase_inbox (s : State) (v : Phase) : (s.setPhase v).inbox = s.inbox := rfl
@[simp] theorem State.setPhase_trace (s : State) (v : Phase) : (s.setPhase v).trace = s.trace := rfl
@[simp] theorem State.setPhase_draws (s : State) (v : Phase) : (s.setPhase v).draws = s.draws := rfl

@[simp] theorem State.setOutcome_cfg (s : State) (v : RunOutcome) : (s.setOutcome v).cfg = s.cfg := rfl
@[simp] theorem State.setOutcome_keys (s : State) (v : RunOutcome) : (s.setOutcome v).keys = s.keys := rfl
@[simp] theorem State.setOutcome_swKey (s : State) (v : RunOutcome) : (s.setOutcome v).swKey = s.swKey := rfl
@[simp] theorem State.setOutcome_trig (s : State) (v : RunOutcome) : (s.setOutcome v).trig = s.trig := rfl
@[simp] theorem State.setOutcome_phase (s : State) (v : RunOutcome) : (s.setOutcome v).phase = s.phase := rfl
@[simp] theorem State.setOutcome_outcome (s : State) (v : RunOutcome) : (s.setOutcome v).outcome = v := rfl
@[simp] theorem State.setOutcome_ram (s : State) (v : RunOutcome) : (s.setOutcome v).ram = s.ram := rfl
@[simp] theorem State.setOutcome_regs (s : State) (v : RunOutcome) : (s.setOutcome v).regs = s.regs := rfl
@[simp] theorem State.setOutcome_keyIn (s : State) (v : RunOutcome) : (s.setOutcome v).keyIn = s.keyIn := rfl
@[simp] theorem State.setOutcome_accOp (s : State) (v : RunOutcome) : (s.setOutcome v).accOp = s.accOp := rfl
@[simp] theorem State.setOutcome_accWait (s : State) (v : RunOutcome) : (s.setOutcome v).accWait = s.accWait := rfl
@[simp] theorem State.setOutcome_slots (s : State) (v : RunOutcome) : (s.setOutcome v).slots = s.slots := rfl
@[simp] theorem State.setOutcome_inbox (s : State) (v : RunOutcome) : (s.setOutcome v).inbox = s.inbox := rfl
@[simp] theorem State.setOutcome_trace (s : State) (v : RunOutcome) : (s.setOutcome v).trace = s.trace := rfl
@[simp] theorem State.setOutcome_draws (s : State) (v : RunOutcome) : (s.setOutcome v).draws = s.draws := rfl

@[simp] theorem State.setRam_cfg (s : State) (v : Memory) : (s.setRam v).cfg = s.cfg := rfl
@[simp] theorem State.setRam_keys (s : State) (v : Memory) : (s.setRam v).keys = s.keys := rfl
@[simp] theorem State.setRam_swKey (s : State) (v : Memory) : (s.setRam v).swKey = s.swKey := rfl
@[simp] theorem State.setRam_trig (s : State) (v : Memory) : (s.setRam v).trig = s.trig := rfl
@[simp] theorem State.setRam_phase (s : State) (v : Memory) : (s.setRam v).phase = s.phase := rfl
@[simp] theorem State.setRam_outcome (s : State) (v : Memory) : (s.setRam v).outcome = s.outcome := rfl
@[simp] theorem State.setRam_ram (s : State) (v : Memory) : (s.setRam v).ram = v := rfl
@[simp] theorem State.setRam_regs (s : State) (v : Memory) : (s.setRam v).regs = s.regs := rfl
@[simp] theorem State.setRam_keyIn (s : State) (v : Memory) : (s.setRam v).keyIn = s.keyIn := rfl
@[simp] theorem State.setRam_accOp (s : State) (v : Memory) : (s.setRam v).accOp = s.accOp := rfl
@[simp] theorem State.setRam_accWait (s : State) (v : Memory) : (s.setRam v).accWait = s.accWait := rfl
@[simp] theorem State.setRam_slots (s : State) (v : Memory) : (s.setRam v).slots = s.slots := rfl
@[simp] theorem State.setRam_inbox (s : State) (v : Memory) : (s.setRam v).inbox = s.inbox := rfl
@[simp] theorem State.setRam_trace (s : State) (v : Memory) : (s.setRam v).trace = s.trace := rfl
@[simp] theorem State.setRam_draws (s : State) (v : Memory) : (s.setRam v).draws = s.draws := rfl

@[simp] theorem State.setRegs_cfg (s : State) (v : AccRegs) : (s.setRegs v).cfg = s.cfg := rfl
@[simp] theorem State.setRegs_keys (s : State) (v : AccRegs) : (s.setRegs v).keys = s.keys := rfl
@[simp] theorem State.setRegs_swKey (s : State) (v : AccRegs) : (s.setRegs v).swKey = s.swKey := rfl
@[simp] theorem State.setRegs_trig (s : State) (v : AccRegs) : (s.setRegs v).trig = s.trig := rfl
@[simp] theorem State.setRegs_phase (s : State) (v : AccRegs) : (s.setRegs v).phase = s.phase := rfl
@[simp] theorem State.setRegs_outcome (s : State) (v : AccRegs) : (s.setRegs v).outcome = s.outcome := rfl
@[simp] theorem State.setRegs_ram (s : State) (v : AccRegs) : (s.setRegs v).ram = s.ram := rfl
@[simp] theorem State.setRegs_regs (s : State) (v : AccRegs) : (s.setRegs v).regs = v := rfl
@[simp] theorem State.setRegs_keyIn (s : State) (v : AccRegs) : (s.setRegs v).keyIn = s.keyIn := rfl
@[simp] theorem State.setRegs_accOp (s : State) (v : AccRegs) : (s.setRegs v).accOp = s.accOp := rfl
@[simp] theorem State.setRegs_accWait (s : State) (v : AccRegs) : (s.setRegs v).accWait = s.accWait := rfl
@[simp] theorem State.setRegs_slots (s : State) (v : AccRegs) : (s.setRegs v).slots = s.slots := rfl
@[simp] theorem State.setRegs_inbox (s : State) (v : AccRegs) : (s.setRegs v).inbox = s.inbox := rfl
@[simp] theorem State.setRegs_trace (s : State) (v : AccRegs) : (s.setRegs v).trace = s.trace := rfl
@[simp] theorem State.setRegs_draws (s : State) (v : AccRegs) : (s.setRegs v).draws = s.draws := rfl

@[simp] theorem State.setKeyIn_cfg (s : State) (v : Key256) : (s.setKeyIn v).cfg = s.cfg := rfl
@[simp] theorem State.setKeyIn_keys (s : State) (v : Key256) : (s.setKeyIn v).keys = s.keys := rfl
@[simp] theorem State.setKeyIn_swKey (s : State) (v : Key256) : (s.setKeyIn v).swKey = s.swKey := rfl
@[simp] theorem State.setKeyIn_trig (s : State) (v : Key256) : (s.setKeyIn v).trig = s.trig := rfl
@[simp] theorem State.setKeyIn_phase (s : State) (v : Key256) : (s.setKeyIn v).phase = s.phase := rfl
@[simp] theorem State.setKeyIn_outcome (s : State) (v : Key256) : (s.setKeyIn v).outcome = s.outcome := rfl
@[simp] theorem State.setKeyIn_ram (s : State) (v : Key256) : (s.setKeyIn v).ram = s.ram := rfl
@[simp] theorem State.setKeyIn_regs (s : State) (v : Key256) : (s.setKeyIn v).regs = s.regs := rfl
@[simp] theorem State.setKeyIn_keyIn (s : State) (v : Key256) : (s.setKeyIn v).keyIn = v := rfl
@[simp] theorem State.setKeyIn_accOp (s : State) (v : Key256) : (s.setKeyIn v).accOp = s.accOp := rfl
@[simp] theorem State.setKeyIn_accWait (s : State) (v : Key256) : (s.setKeyIn v).accWait = s.accWait := rfl
@[simp] theorem State.setKeyIn_slots (s : State) (v : Key256) : (s.setKeyIn v).slots = s.slots := rfl
@[simp] theorem State.setKeyIn_inbox (s : State) (v : Key256) : (s.setKeyIn v).inbox = s.inbox := rfl
@[simp] theorem State.setKeyIn_trace (s : State) (v : Key256) : (s.setKeyIn v).trace = s.trace := rfl
@[simp] theorem State.setKeyIn_draws (s : State) (v : Key256) : (s.setKeyIn v).draws = s.draws := rfl

@[simp] theorem State.setAccOp_cfg (s : State) (v : Option AccOp) : (s.setAccOp v).cfg = s.cfg := rfl
@[simp] theorem State.setAccOp_keys (s : State) (v : Option AccOp) : (s.setAccOp v).keys = s.keys := rfl
@[simp] theorem State.setAccOp_swKey (s : State) (v : Option AccOp) : (s.setAccOp v).swKey = s.swKey := rfl
@[simp] theorem State.setAccOp_trig (s : State) (v : Option AccOp) : (s.setAccOp v).trig = s.trig := rfl
@[simp] theorem State.setAccOp_phase (s : State) (v : Option AccOp) : (s.setAccOp v).phase = s.phase := rfl
@[simp] theorem State.setAccOp_outcome (s : State) (v : Option AccOp) : (s.setAccOp v).outcome = s.outcome := rfl
@[simp] theorem State.setAccOp_ram (s : State) (v : Option AccOp) : (s.setAccOp v).ram = s.ram := rfl
@[simp] theorem State.setAccOp_regs (s : State) (v : Option AccOp) : (s.setAccOp v).regs = s.regs := rfl
@[simp] theorem State.setAccOp_keyIn (s : State) (v : Option AccOp) : (s.setAccOp v).keyIn = s.keyIn := rfl
@[simp] theorem State.setAccOp_accOp (s : State) (v : Option AccOp) : (s.setAccOp v).accOp = v := rfl
@[simp] theorem State.setAccOp_accWait (s : State) (v : Option AccOp) : (s.setAccOp v).accWait = s.accWait := rfl
@[simp] theorem State.setAccOp_slots (s : State) (v : Option AccOp) : (s.setAccOp v).slots = s.slots := rfl
@[simp] theorem State.setAccOp_inbox (s : State) (v : Option AccOp) : (s.setAccOp v).inbox = s.inbox := rfl
@[simp] theorem State.setAccOp_trace (s : State) (v : Option AccOp) : (s.setAccOp v).trace = s.trace := rfl
@[simp] theorem State.setAccOp_draws (s : State) (v : Option AccOp) : (s.setAccOp v).draws = s.draws := rfl

@[simp] theorem State.setAccWait_cfg (s : State) (v : Option Nat) : (s.setAccWait v).cfg = s.cfg := rfl
@[simp] theorem State.setAccWait_keys (s : State) (v : Option Nat) : (s.setAccWait v).keys = s.keys := rfl
@[simp] theorem State.setAccWait_swKey (s : State) (v : Option Nat) : (s.setAccWait v).swKey = s.swKey := rfl
@[simp] theorem State.setAccWait_trig (s : State) (v : Option Nat) : (s.setAccWait v).trig = s.trig := rfl
@[simp] theorem State.setAccWait_phase (s : State) (v : Option Nat) : (s.setAccWait v).phase = s.phase := rfl
@[simp] theorem State.setAccWait_outcome (s : State) (v : Option Nat) : (s.setAccWait v).outcome = s.outcome := rfl
@[simp] theorem State.setAccWait_ram (s : State) (v : Option Nat) : (s.setAccWait v).ram = s.ram := rfl
@[simp] theorem State.setAccWait_regs (s : State) (v : Option Nat) : (s.setAccWait v).regs = s.regs := rfl
@[simp] theorem State.setAccWait_keyIn (s : State) (v : Option Nat) : (s.setAccWait v).keyIn = s.keyIn := rfl
@[simp] theorem State.setAccWait_accOp (s : State) (v : Option Nat) : (s.setAccWait v).accOp = s.accOp := rfl
@[simp] theorem State.setAccWait_accWait (s : State) (v : Option Nat) : (s.setAccWait v).accWait = v := rfl
@[simp] theorem State.setAccWait_slots (s : State) (v : Option Nat) : (s.setAccWait v).slots = s.slots := rfl
@[simp] theorem State.setAccWait_inbox (s : State) (v : Option Nat) : (s.setAccWait v).inbox = s.inbox := rfl
@[simp] theorem State.setAccWait_trace (s : State) (v : Option Nat) : (s.setAccWait v).trace = s.trace := rfl
@[simp] theorem State.setAccWait_draws (s : State) (v : Option Nat) : (s.setAccWait v).draws = s.draws := rfl

@[simp] theorem State.setSlots_cfg (s : State) (v : Slots) : (s.setSlots v).cfg = s.cfg := rfl
@[simp] theorem State.setSlots_keys (s : State) (v : Slots) : (s.setSlots v).keys = s.keys := rfl
@[simp] theorem State.setSlots_swKey (s : State) (v : Slots) : (s.setSlots v).swKey = s.swKey := rfl
@[simp] theorem State.setSlots_trig (s : State) (v : Slots) : (s.setSlots v).trig = s.trig := rfl
@[simp] theorem State.setSlots_phase (s : State) (v : Slots) : (s.setSlots v).phase = s.phase := rfl
@[simp] theorem State.setSlots_outcome (s : State) (v : Slots) : (s.setSlots v).outcome = s.outcome := rfl
@[simp] theorem State.setSlots_ram (s : State) (v : Slots) : (s.setSlots v).ram = s.ram := rfl
@[simp] theorem State.setSlots_regs (s : State) (v : Slots) : (s.setSlots v).regs = s.regs := rfl
@[simp] theorem State.setSlots_keyIn (s : State) (v : Slots) : (s.setSlots v).keyIn = s.keyIn := rfl
@[simp] theorem State.setSlots_accOp (s : State) (v : Slots) : (s.setSlots v).accOp = s.accOp := rfl
@[simp] theorem State.setSlots_accWait (s : State) (v : Slots) : (s.setSlots v).accWait = s.accWait := rfl
@[simp] theorem State.setSlots_slots (s : State) (v : Slots) : (s.setSlots v).slots = v := rfl
@[simp] theorem State.setSlots_inbox (s : State) (v : Slots) : (s.setSlots v).inbox = s.inbox := rfl
@[simp] theorem State.setSlots_trace (s : State) (v : Slots) : (s.setSlots v).trace = s.trace := rfl
@[simp] theorem State.setSlots_draws (s : State) (v : Slots) : (s.setSlots v).draws = s.draws := rfl

@[simp] theorem State.setInbox_cfg (s : State) (v : List Byte) : (s.setInbox v).cfg = s.cfg := rfl
@[simp] theorem State.setInbox_keys (s : State) (v : List Byte) : (s.setInbox v).keys = s.keys := rfl
@[simp] theorem State.setInbox_swKey (s : State) (v : List Byte) : (s.setInbox v).swKey = s.swKey := rfl
@[simp] theorem State.setInbox_trig (s : State) (v : List Byte) : (s.setInbox v).trig = s.trig := rfl
@[simp] theorem State.setInbox_phase (s : State) (v : List Byte) : (s.setInbox v).phase = s.phase := rfl
@[simp] theorem State.setInbox_outcome (s : State) (v : List Byte) : (s.setInbox v).outcome = s.outcome := rfl
@[simp] theorem State.setInbox_ram (s : State) (v : List Byte) : (s.setInbox v).ram = s.ram := rfl
@[simp] theorem State.setInbox_regs (s : State) (v : List Byte) : (s.setInbox v).regs = s.regs := rfl
@[simp] theorem State.setInbox_keyIn (s : State) (v : List Byte) : (s.setInbox v).keyIn = s.keyIn := rfl
@[simp] theorem State.setInbox_accOp (s : State) (v : List Byte) : (s.setInbox v).accOp = s.accOp := rfl
@[simp] theorem State.setInbox_accWait (s : State) (v : List Byte) : (s.setInbox v).accWait = s.accWait := rfl
@[simp] theorem State.setInbox_slots (s : State) (v : List Byte) : (s.setInbox v).slots = s.slots := rfl
@[simp] theorem State.setInbox_inbox (s : State) (v : List Byte) : (s.setInbox v).inbox = v := rfl
@[simp] theorem State.setInbox_trace (s : State) (v : List Byte) : (s.setInbox v).trace = s.trace := rfl
@[simp] theorem State.setInbox_draws (s : State) (v : List Byte) : (s.setInbox v).draws = s.draws := rfl

@[simp] theorem State.setTrace_cfg (s : State) (v : List Event) : (s.setTrace v).cfg = s.cfg := rfl
@[simp] theorem State.setTrace_keys (s : State) (v : List Event) : (s.setTrace v).keys = s.keys := rfl
@[simp] theorem State.setTrace_swKey (s : State) (v : List Event) : (s.setTrace v).swKey = s.swKey := rfl
@[simp] theorem State.setTrace_trig (s : State) (v : List Event) : (s.setTrace v).trig = s.trig := rfl
@[simp] theorem State.setTrace_phase (s : State) (v : List Event) : (s.setTrace v).phase = s.phase := rfl
@[simp] theorem State.setTrace_outcome (s : State) (v : List Event) : (s.setTrace v).outcome = s.outcome := rfl
@[simp] theorem State.setTrace_ram (s : State) (v : List Event) : (s.setTrace v).ram = s.ram := rfl
@[simp] theorem State.setTrace_regs (s : State) (v : List Event) : (s.setTrace v).regs = s.regs := rfl
@[simp] theorem State.setTrace_keyIn (s : State) (v : List Event) : (s.setTrace v).keyIn = s.keyIn := rfl
@[simp] theorem State.setTrace_accOp (s : State) (v : List Event) : (s.setTrace v).accOp = s.accOp := rfl
@[simp] theorem State.setTrace_accWait (s : State) (v : List Event) : (s.setTrace v).accWait = s.accWait := rfl
@[simp] theorem State.setTrace_slots (s : State) (v : List Event) : (s.setTrace v).slots = s.slots := rfl
@[simp] theorem State.setTrace_inbox (s : State) (v : List Event) : (s.setTrace v).inbox = s.inbox := rfl
@[simp] theorem State.setTrace_trace (s : State) (v : List Event) : (s.setTrace v).trace = v := rfl
@[simp] theorem State.setTrace_draws (s : State) (v : List Event) : (s.setTrace v).draws = s.draws := rfl

@[simp] theorem State.setDraws_cfg (s : State) (v : Draws) : (s.setDraws v).cfg = s.cfg := rfl
@[simp] theorem State.setDraws_keys (s : State) (v : Draws) : (s.setDraws v).keys = s.keys := rfl
@[simp] theorem State.setDraws_swKey (s : State) (v : Draws) : (s.setDraws v).swKey = s.swKey := rfl
@[simp] theorem State.setDraws_trig (s : State) (v : Draws) : (s.setDraws v).trig = s.trig := rfl
@[simp] theorem State.setDraws_phase (s : State) (v : Draws) : (s.setDraws v).phase = s.phase := rfl
@[simp] theorem State.setDraws_outcome (s : State) (v : Draws) : (s.setDraws v).outcome = s.outcome := rfl
@[simp] theorem State.setDraws_ram (s : State) (v : Draws) : (s.setDraws v).ram = s.ram := rfl
@[simp] theorem State.setDraws_regs (s : State) (v : Draws) : (s.setDraws v).regs = s.regs := rfl
@[simp] theorem State.setDraws_keyIn (s : State) (v : Draws) : (s.setDraws v).keyIn = s.keyIn := rfl
@[simp] theorem State.setDraws_accOp (s : State) (v : Draws) : (s.setDraws v).accOp = s.accOp := rfl
@[simp] theorem State.setDraws_accWait (s : State) (v : Draws) : (s.setDraws v).accWait = s.accWait := rfl
@[simp] theorem State.setDraws_slots (s : State) (v : Draws) : (s.setDraws v).slots = s.slots := rfl
@[simp] theorem State.setDraws_inbox (s : State) (v : Draws) : (s.setDraws v).inbox = s.inbox := rfl
@[simp] theorem State.setDraws_trace (s : State) (v : Draws) : (s.setDraws v).trace = s.trace := rfl
@[simp] theorem State.setDraws_draws (s : State) (v : Draws) : (s.setDraws v).draws = v := rfl

end Sys2Proof.Machine
end

