-- ==== Sys2Proof/Laws/Ops.lean ====
section
/-! SUPPORT. What each named operation over the state does to each field, and the laws of data RAM. -/

namespace Sys2Proof.Machine

@[simp] theorem State.emit_cfg (s : State) (e : Event) : (s.emit e).cfg = s.cfg := rfl
@[simp] theorem State.emit_keys (s : State) (e : Event) : (s.emit e).keys = s.keys := rfl
@[simp] theorem State.emit_swKey (s : State) (e : Event) : (s.emit e).swKey = s.swKey := rfl
@[simp] theorem State.emit_trig (s : State) (e : Event) : (s.emit e).trig = s.trig := rfl
@[simp] theorem State.emit_phase (s : State) (e : Event) : (s.emit e).phase = s.phase := rfl
@[simp] theorem State.emit_outcome (s : State) (e : Event) : (s.emit e).outcome = s.outcome := rfl
@[simp] theorem State.emit_ram (s : State) (e : Event) : (s.emit e).ram = s.ram := rfl
@[simp] theorem State.emit_regs (s : State) (e : Event) : (s.emit e).regs = s.regs := rfl
@[simp] theorem State.emit_keyIn (s : State) (e : Event) : (s.emit e).keyIn = s.keyIn := rfl
@[simp] theorem State.emit_accOp (s : State) (e : Event) : (s.emit e).accOp = s.accOp := rfl
@[simp] theorem State.emit_accWait (s : State) (e : Event) : (s.emit e).accWait = s.accWait := rfl
@[simp] theorem State.emit_slots (s : State) (e : Event) : (s.emit e).slots = s.slots := rfl
@[simp] theorem State.emit_inbox (s : State) (e : Event) : (s.emit e).inbox = s.inbox := rfl
@[simp] theorem State.emit_trace (s : State) (e : Event) : (s.emit e).trace = s.trace ++ [e] := rfl
@[simp] theorem State.emit_draws (s : State) (e : Event) : (s.emit e).draws = s.draws := rfl

@[simp] theorem State.writeBuf_cfg (s : State) (b : Block) : (s.writeBuf b).cfg = s.cfg := rfl
@[simp] theorem State.writeBuf_keys (s : State) (b : Block) : (s.writeBuf b).keys = s.keys := rfl
@[simp] theorem State.writeBuf_swKey (s : State) (b : Block) : (s.writeBuf b).swKey = s.swKey := rfl
@[simp] theorem State.writeBuf_trig (s : State) (b : Block) : (s.writeBuf b).trig = s.trig := rfl
@[simp] theorem State.writeBuf_phase (s : State) (b : Block) : (s.writeBuf b).phase = s.phase := rfl
@[simp] theorem State.writeBuf_outcome (s : State) (b : Block) : (s.writeBuf b).outcome = s.outcome := rfl
@[simp] theorem State.writeBuf_ram (s : State) (b : Block) : (s.writeBuf b).ram = memWrite s.ram s.cfg.bufAddr b := rfl
@[simp] theorem State.writeBuf_regs (s : State) (b : Block) : (s.writeBuf b).regs = s.regs := rfl
@[simp] theorem State.writeBuf_keyIn (s : State) (b : Block) : (s.writeBuf b).keyIn = s.keyIn := rfl
@[simp] theorem State.writeBuf_accOp (s : State) (b : Block) : (s.writeBuf b).accOp = s.accOp := rfl
@[simp] theorem State.writeBuf_accWait (s : State) (b : Block) : (s.writeBuf b).accWait = s.accWait := rfl
@[simp] theorem State.writeBuf_slots (s : State) (b : Block) : (s.writeBuf b).slots = s.slots := rfl
@[simp] theorem State.writeBuf_inbox (s : State) (b : Block) : (s.writeBuf b).inbox = s.inbox := rfl
@[simp] theorem State.writeBuf_trace (s : State) (b : Block) : (s.writeBuf b).trace = s.trace := rfl
@[simp] theorem State.writeBuf_draws (s : State) (b : Block) : (s.writeBuf b).draws = s.draws := rfl

@[simp] theorem State.assertTrig_cfg (s : State) : (s.assertTrig).cfg = s.cfg := rfl
@[simp] theorem State.assertTrig_keys (s : State) : (s.assertTrig).keys = s.keys := rfl
@[simp] theorem State.assertTrig_swKey (s : State) : (s.assertTrig).swKey = s.swKey := rfl
@[simp] theorem State.assertTrig_trig (s : State) : (s.assertTrig).trig = true := rfl
@[simp] theorem State.assertTrig_phase (s : State) : (s.assertTrig).phase = s.phase := rfl
@[simp] theorem State.assertTrig_outcome (s : State) : (s.assertTrig).outcome = s.outcome := rfl
@[simp] theorem State.assertTrig_ram (s : State) : (s.assertTrig).ram = s.ram := rfl
@[simp] theorem State.assertTrig_regs (s : State) : (s.assertTrig).regs = s.regs := rfl
@[simp] theorem State.assertTrig_keyIn (s : State) : (s.assertTrig).keyIn = s.keyIn := rfl
@[simp] theorem State.assertTrig_accOp (s : State) : (s.assertTrig).accOp = s.accOp := rfl
@[simp] theorem State.assertTrig_accWait (s : State) : (s.assertTrig).accWait = s.accWait := rfl
@[simp] theorem State.assertTrig_slots (s : State) : (s.assertTrig).slots = s.slots := rfl
@[simp] theorem State.assertTrig_inbox (s : State) : (s.assertTrig).inbox = s.inbox := rfl
@[simp] theorem State.assertTrig_trace (s : State) : (s.assertTrig).trace = s.trace ++ [.t1] := rfl
@[simp] theorem State.assertTrig_draws (s : State) : (s.assertTrig).draws = s.draws := rfl

@[simp] theorem State.deassertTrig_cfg (s : State) : (s.deassertTrig).cfg = s.cfg := rfl
@[simp] theorem State.deassertTrig_keys (s : State) : (s.deassertTrig).keys = s.keys := rfl
@[simp] theorem State.deassertTrig_swKey (s : State) : (s.deassertTrig).swKey = s.swKey := rfl
@[simp] theorem State.deassertTrig_trig (s : State) : (s.deassertTrig).trig = false := rfl
@[simp] theorem State.deassertTrig_phase (s : State) : (s.deassertTrig).phase = s.phase := rfl
@[simp] theorem State.deassertTrig_outcome (s : State) : (s.deassertTrig).outcome = s.outcome := rfl
@[simp] theorem State.deassertTrig_ram (s : State) : (s.deassertTrig).ram = s.ram := rfl
@[simp] theorem State.deassertTrig_regs (s : State) : (s.deassertTrig).regs = s.regs := rfl
@[simp] theorem State.deassertTrig_keyIn (s : State) : (s.deassertTrig).keyIn = s.keyIn := rfl
@[simp] theorem State.deassertTrig_accOp (s : State) : (s.deassertTrig).accOp = s.accOp := rfl
@[simp] theorem State.deassertTrig_accWait (s : State) : (s.deassertTrig).accWait = s.accWait := rfl
@[simp] theorem State.deassertTrig_slots (s : State) : (s.deassertTrig).slots = s.slots := rfl
@[simp] theorem State.deassertTrig_inbox (s : State) : (s.deassertTrig).inbox = s.inbox := rfl
@[simp] theorem State.deassertTrig_trace (s : State) : (s.deassertTrig).trace = s.trace ++ [.t0] := rfl
@[simp] theorem State.deassertTrig_draws (s : State) : (s.deassertTrig).draws = s.draws := rfl

@[simp] theorem State.replyBlock_cfg (s : State) (b : Block) : (s.replyBlock b).cfg = s.cfg := rfl
@[simp] theorem State.replyBlock_keys (s : State) (b : Block) : (s.replyBlock b).keys = s.keys := rfl
@[simp] theorem State.replyBlock_swKey (s : State) (b : Block) : (s.replyBlock b).swKey = s.swKey := rfl
@[simp] theorem State.replyBlock_trig (s : State) (b : Block) : (s.replyBlock b).trig = s.trig := rfl
@[simp] theorem State.replyBlock_phase (s : State) (b : Block) : (s.replyBlock b).phase = s.phase := rfl
@[simp] theorem State.replyBlock_outcome (s : State) (b : Block) : (s.replyBlock b).outcome = s.outcome := rfl
@[simp] theorem State.replyBlock_ram (s : State) (b : Block) : (s.replyBlock b).ram = s.ram := rfl
@[simp] theorem State.replyBlock_regs (s : State) (b : Block) : (s.replyBlock b).regs = s.regs := rfl
@[simp] theorem State.replyBlock_keyIn (s : State) (b : Block) : (s.replyBlock b).keyIn = s.keyIn := rfl
@[simp] theorem State.replyBlock_accOp (s : State) (b : Block) : (s.replyBlock b).accOp = s.accOp := rfl
@[simp] theorem State.replyBlock_accWait (s : State) (b : Block) : (s.replyBlock b).accWait = s.accWait := rfl
@[simp] theorem State.replyBlock_slots (s : State) (b : Block) : (s.replyBlock b).slots = s.slots := rfl
@[simp] theorem State.replyBlock_inbox (s : State) (b : Block) : (s.replyBlock b).inbox = s.inbox := rfl
@[simp] theorem State.replyBlock_trace (s : State) (b : Block) : (s.replyBlock b).trace = s.trace ++ [.rep (s.cfg.statusOk :: b.toList)] := rfl
@[simp] theorem State.replyBlock_draws (s : State) (b : Block) : (s.replyBlock b).draws = s.draws := rfl

@[simp] theorem State.finish_cfg (s : State) : (s.finish).cfg = s.cfg := rfl
@[simp] theorem State.finish_keys (s : State) : (s.finish).keys = s.keys := rfl
@[simp] theorem State.finish_swKey (s : State) : (s.finish).swKey = s.swKey := rfl
@[simp] theorem State.finish_trig (s : State) : (s.finish).trig = s.trig := rfl
@[simp] theorem State.finish_phase (s : State) : (s.finish).phase = .idle := rfl
@[simp] theorem State.finish_outcome (s : State) : (s.finish).outcome = s.outcome := rfl
@[simp] theorem State.finish_ram (s : State) : (s.finish).ram = s.ram := rfl
@[simp] theorem State.finish_regs (s : State) : (s.finish).regs = s.regs := rfl
@[simp] theorem State.finish_keyIn (s : State) : (s.finish).keyIn = s.keyIn := rfl
@[simp] theorem State.finish_accOp (s : State) : (s.finish).accOp = s.accOp := rfl
@[simp] theorem State.finish_accWait (s : State) : (s.finish).accWait = s.accWait := rfl
@[simp] theorem State.finish_slots (s : State) : (s.finish).slots = s.slots := rfl
@[simp] theorem State.finish_inbox (s : State) : (s.finish).inbox = s.inbox := rfl
@[simp] theorem State.finish_trace (s : State) : (s.finish).trace = s.trace := rfl
@[simp] theorem State.finish_draws (s : State) : (s.finish).draws = s.draws := rfl

@[simp] theorem State.takeLatency_cfg (s : State) : (s.takeLatency).cfg = s.cfg := rfl
@[simp] theorem State.takeLatency_keys (s : State) : (s.takeLatency).keys = s.keys := rfl
@[simp] theorem State.takeLatency_swKey (s : State) : (s.takeLatency).swKey = s.swKey := rfl
@[simp] theorem State.takeLatency_trig (s : State) : (s.takeLatency).trig = s.trig := rfl
@[simp] theorem State.takeLatency_phase (s : State) : (s.takeLatency).phase = s.phase := rfl
@[simp] theorem State.takeLatency_outcome (s : State) : (s.takeLatency).outcome = s.outcome := rfl
@[simp] theorem State.takeLatency_ram (s : State) : (s.takeLatency).ram = s.ram := rfl
@[simp] theorem State.takeLatency_regs (s : State) : (s.takeLatency).regs = s.regs := rfl
@[simp] theorem State.takeLatency_keyIn (s : State) : (s.takeLatency).keyIn = s.keyIn := rfl
@[simp] theorem State.takeLatency_accOp (s : State) : (s.takeLatency).accOp = s.accOp := rfl
@[simp] theorem State.takeLatency_accWait (s : State) : (s.takeLatency).accWait = s.accWait := rfl
@[simp] theorem State.takeLatency_slots (s : State) : (s.takeLatency).slots = s.slots := rfl
@[simp] theorem State.takeLatency_inbox (s : State) : (s.takeLatency).inbox = s.inbox := rfl
@[simp] theorem State.takeLatency_trace (s : State) : (s.takeLatency).trace = s.trace := rfl
@[simp] theorem State.takeLatency_draws (s : State) : (s.takeLatency).draws = { s.draws with latencies := s.draws.latencies.tail, taken := s.draws.taken + 1 } := rfl

@[simp] theorem State.takeStatus_cfg (s : State) : (s.takeStatus).cfg = s.cfg := rfl
@[simp] theorem State.takeStatus_keys (s : State) : (s.takeStatus).keys = s.keys := rfl
@[simp] theorem State.takeStatus_swKey (s : State) : (s.takeStatus).swKey = s.swKey := rfl
@[simp] theorem State.takeStatus_trig (s : State) : (s.takeStatus).trig = s.trig := rfl
@[simp] theorem State.takeStatus_phase (s : State) : (s.takeStatus).phase = s.phase := rfl
@[simp] theorem State.takeStatus_outcome (s : State) : (s.takeStatus).outcome = s.outcome := rfl
@[simp] theorem State.takeStatus_ram (s : State) : (s.takeStatus).ram = s.ram := rfl
@[simp] theorem State.takeStatus_regs (s : State) : (s.takeStatus).regs = s.regs := rfl
@[simp] theorem State.takeStatus_keyIn (s : State) : (s.takeStatus).keyIn = s.keyIn := rfl
@[simp] theorem State.takeStatus_accOp (s : State) : (s.takeStatus).accOp = s.accOp := rfl
@[simp] theorem State.takeStatus_accWait (s : State) : (s.takeStatus).accWait = s.accWait := rfl
@[simp] theorem State.takeStatus_slots (s : State) : (s.takeStatus).slots = s.slots := rfl
@[simp] theorem State.takeStatus_inbox (s : State) : (s.takeStatus).inbox = s.inbox := rfl
@[simp] theorem State.takeStatus_trace (s : State) : (s.takeStatus).trace = s.trace := rfl
@[simp] theorem State.takeStatus_draws (s : State) : (s.takeStatus).draws = { s.draws with statusBits := s.draws.statusBits.tail, taken := s.draws.taken + 1 } := rfl

@[simp] theorem State.takeBlock_cfg (s : State) : (s.takeBlock).cfg = s.cfg := rfl
@[simp] theorem State.takeBlock_keys (s : State) : (s.takeBlock).keys = s.keys := rfl
@[simp] theorem State.takeBlock_swKey (s : State) : (s.takeBlock).swKey = s.swKey := rfl
@[simp] theorem State.takeBlock_trig (s : State) : (s.takeBlock).trig = s.trig := rfl
@[simp] theorem State.takeBlock_phase (s : State) : (s.takeBlock).phase = s.phase := rfl
@[simp] theorem State.takeBlock_outcome (s : State) : (s.takeBlock).outcome = s.outcome := rfl
@[simp] theorem State.takeBlock_ram (s : State) : (s.takeBlock).ram = s.ram := rfl
@[simp] theorem State.takeBlock_regs (s : State) : (s.takeBlock).regs = s.regs := rfl
@[simp] theorem State.takeBlock_keyIn (s : State) : (s.takeBlock).keyIn = s.keyIn := rfl
@[simp] theorem State.takeBlock_accOp (s : State) : (s.takeBlock).accOp = s.accOp := rfl
@[simp] theorem State.takeBlock_accWait (s : State) : (s.takeBlock).accWait = s.accWait := rfl
@[simp] theorem State.takeBlock_slots (s : State) : (s.takeBlock).slots = s.slots := rfl
@[simp] theorem State.takeBlock_inbox (s : State) : (s.takeBlock).inbox = s.inbox := rfl
@[simp] theorem State.takeBlock_trace (s : State) : (s.takeBlock).trace = s.trace := rfl
@[simp] theorem State.takeBlock_draws (s : State) : (s.takeBlock).draws = { s.draws with blocks := s.draws.blocks.tail, taken := s.draws.taken + 1 } := rfl

@[simp] theorem State.hostSend_cfg (s : State) (b : List Byte) : (s.hostSend b).cfg = s.cfg := rfl
@[simp] theorem State.hostSend_keys (s : State) (b : List Byte) : (s.hostSend b).keys = s.keys := rfl
@[simp] theorem State.hostSend_swKey (s : State) (b : List Byte) : (s.hostSend b).swKey = s.swKey := rfl
@[simp] theorem State.hostSend_trig (s : State) (b : List Byte) : (s.hostSend b).trig = s.trig := rfl
@[simp] theorem State.hostSend_phase (s : State) (b : List Byte) : (s.hostSend b).phase = s.phase := rfl
@[simp] theorem State.hostSend_outcome (s : State) (b : List Byte) : (s.hostSend b).outcome = s.outcome := rfl
@[simp] theorem State.hostSend_ram (s : State) (b : List Byte) : (s.hostSend b).ram = s.ram := rfl
@[simp] theorem State.hostSend_regs (s : State) (b : List Byte) : (s.hostSend b).regs = s.regs := rfl
@[simp] theorem State.hostSend_keyIn (s : State) (b : List Byte) : (s.hostSend b).keyIn = s.keyIn := rfl
@[simp] theorem State.hostSend_accOp (s : State) (b : List Byte) : (s.hostSend b).accOp = s.accOp := rfl
@[simp] theorem State.hostSend_accWait (s : State) (b : List Byte) : (s.hostSend b).accWait = s.accWait := rfl
@[simp] theorem State.hostSend_slots (s : State) (b : List Byte) : (s.hostSend b).slots = s.slots := rfl
@[simp] theorem State.hostSend_inbox (s : State) (b : List Byte) : (s.hostSend b).inbox = s.inbox ++ b := rfl
@[simp] theorem State.hostSend_trace (s : State) (b : List Byte) : (s.hostSend b).trace = s.trace := rfl
@[simp] theorem State.hostSend_draws (s : State) (b : List Byte) : (s.hostSend b).draws = s.draws := rfl

@[simp] theorem State.replyAck_cfg (s : State) : (s.replyAck).cfg = s.cfg := rfl
@[simp] theorem State.replyAck_keys (s : State) : (s.replyAck).keys = s.keys := rfl
@[simp] theorem State.replyAck_swKey (s : State) : (s.replyAck).swKey = s.swKey := rfl
@[simp] theorem State.replyAck_trig (s : State) : (s.replyAck).trig = s.trig := rfl
@[simp] theorem State.replyAck_phase (s : State) : (s.replyAck).phase = s.phase := rfl
@[simp] theorem State.replyAck_outcome (s : State) : (s.replyAck).outcome = s.outcome := rfl
@[simp] theorem State.replyAck_ram (s : State) : (s.replyAck).ram = s.ram := rfl
@[simp] theorem State.replyAck_regs (s : State) : (s.replyAck).regs = s.regs := rfl
@[simp] theorem State.replyAck_keyIn (s : State) : (s.replyAck).keyIn = s.keyIn := rfl
@[simp] theorem State.replyAck_accOp (s : State) : (s.replyAck).accOp = s.accOp := rfl
@[simp] theorem State.replyAck_accWait (s : State) : (s.replyAck).accWait = s.accWait := rfl
@[simp] theorem State.replyAck_slots (s : State) : (s.replyAck).slots = s.slots := rfl
@[simp] theorem State.replyAck_inbox (s : State) : (s.replyAck).inbox = s.inbox := rfl
@[simp] theorem State.replyAck_trace (s : State) : (s.replyAck).trace = s.trace ++ ackEvents s.cfg := rfl
@[simp] theorem State.replyAck_draws (s : State) : (s.replyAck).draws = s.draws := rfl

@[simp] theorem State.finishAck_cfg (s : State) : (s.finishAck).cfg = s.cfg := rfl
@[simp] theorem State.finishAck_keys (s : State) : (s.finishAck).keys = s.keys := rfl
@[simp] theorem State.finishAck_swKey (s : State) : (s.finishAck).swKey = s.swKey := rfl
@[simp] theorem State.finishAck_trig (s : State) : (s.finishAck).trig = s.trig := rfl
@[simp] theorem State.finishAck_phase (s : State) : (s.finishAck).phase = .idle := rfl
@[simp] theorem State.finishAck_outcome (s : State) : (s.finishAck).outcome = s.outcome := rfl
@[simp] theorem State.finishAck_ram (s : State) : (s.finishAck).ram = s.ram := rfl
@[simp] theorem State.finishAck_regs (s : State) : (s.finishAck).regs = s.regs := rfl
@[simp] theorem State.finishAck_keyIn (s : State) : (s.finishAck).keyIn = s.keyIn := rfl
@[simp] theorem State.finishAck_accOp (s : State) : (s.finishAck).accOp = s.accOp := rfl
@[simp] theorem State.finishAck_accWait (s : State) : (s.finishAck).accWait = s.accWait := rfl
@[simp] theorem State.finishAck_slots (s : State) : (s.finishAck).slots = s.slots := rfl
@[simp] theorem State.finishAck_inbox (s : State) : (s.finishAck).inbox = s.inbox := rfl
@[simp] theorem State.finishAck_trace (s : State) : (s.finishAck).trace = s.trace ++ ackEvents s.cfg := rfl
@[simp] theorem State.finishAck_draws (s : State) : (s.finishAck).draws = s.draws := rfl

@[simp] theorem State.afterStatusRead_cfg (s : State) : (s.afterStatusRead).cfg = s.cfg := rfl
@[simp] theorem State.afterStatusRead_keys (s : State) : (s.afterStatusRead).keys = s.keys := rfl
@[simp] theorem State.afterStatusRead_swKey (s : State) : (s.afterStatusRead).swKey = s.swKey := rfl
@[simp] theorem State.afterStatusRead_trig (s : State) : (s.afterStatusRead).trig = s.trig := rfl
@[simp] theorem State.afterStatusRead_phase (s : State) : (s.afterStatusRead).phase = s.phase := rfl
@[simp] theorem State.afterStatusRead_outcome (s : State) : (s.afterStatusRead).outcome = s.outcome := rfl
@[simp] theorem State.afterStatusRead_ram (s : State) : (s.afterStatusRead).ram = s.ram := rfl
@[simp] theorem State.afterStatusRead_regs (s : State) : (s.afterStatusRead).regs = s.regs := rfl
@[simp] theorem State.afterStatusRead_keyIn (s : State) : (s.afterStatusRead).keyIn = s.keyIn := rfl
@[simp] theorem State.afterStatusRead_accOp (s : State) : (s.afterStatusRead).accOp = s.accOp := rfl
@[simp] theorem State.afterStatusRead_accWait (s : State) : (s.afterStatusRead).accWait = s.accWait := rfl
@[simp] theorem State.afterStatusRead_slots (s : State) : (s.afterStatusRead).slots = s.slots := rfl
@[simp] theorem State.afterStatusRead_inbox (s : State) : (s.afterStatusRead).inbox = s.inbox := rfl
@[simp] theorem State.afterStatusRead_trace (s : State) :
    (s.afterStatusRead).trace = s.trace ++ [.r (statusAddr s.cfg) s.statusRead] := rfl
@[simp] theorem State.afterStatusRead_draws (s : State) : (s.afterStatusRead).draws = s.takeStatus.draws := rfl

@[simp] theorem State.tick_cfg (s : State) : (s.tick).cfg = s.cfg := by unfold State.tick; split <;> rfl
@[simp] theorem State.tick_keys (s : State) : (s.tick).keys = s.keys := by unfold State.tick; split <;> rfl
@[simp] theorem State.tick_swKey (s : State) : (s.tick).swKey = s.swKey := by unfold State.tick; split <;> rfl
@[simp] theorem State.tick_trig (s : State) : (s.tick).trig = s.trig := by unfold State.tick; split <;> rfl
@[simp] theorem State.tick_phase (s : State) : (s.tick).phase = s.phase := by unfold State.tick; split <;> rfl
@[simp] theorem State.tick_outcome (s : State) : (s.tick).outcome = s.outcome := by unfold State.tick; split <;> rfl
@[simp] theorem State.tick_ram (s : State) : (s.tick).ram = s.ram := by unfold State.tick; split <;> rfl
@[simp] theorem State.tick_regs (s : State) : (s.tick).regs = s.regs := by unfold State.tick; split <;> rfl
@[simp] theorem State.tick_keyIn (s : State) : (s.tick).keyIn = s.keyIn := by unfold State.tick; split <;> rfl
@[simp] theorem State.tick_accOp (s : State) : (s.tick).accOp = s.accOp := by unfold State.tick; split <;> rfl
@[simp] theorem State.tick_slots (s : State) : (s.tick).slots = s.slots := by unfold State.tick; split <;> rfl
@[simp] theorem State.tick_inbox (s : State) : (s.tick).inbox = s.inbox := by unfold State.tick; split <;> rfl
@[simp] theorem State.tick_trace (s : State) : (s.tick).trace = s.trace := by unfold State.tick; split <;> rfl
@[simp] theorem State.tick_draws (s : State) : (s.tick).draws = s.draws := by unfold State.tick; split <;> rfl

@[simp] theorem State.accOutput_cfg (s : State) (d : Descriptor) (e : Block) : (s.accOutput d e).cfg = s.cfg := by unfold State.accOutput; split <;> rfl
@[simp] theorem State.accOutput_keys (s : State) (d : Descriptor) (e : Block) : (s.accOutput d e).keys = s.keys := by unfold State.accOutput; split <;> rfl
@[simp] theorem State.accOutput_swKey (s : State) (d : Descriptor) (e : Block) : (s.accOutput d e).swKey = s.swKey := by unfold State.accOutput; split <;> rfl
@[simp] theorem State.accOutput_trig (s : State) (d : Descriptor) (e : Block) : (s.accOutput d e).trig = s.trig := by unfold State.accOutput; split <;> rfl
@[simp] theorem State.accOutput_phase (s : State) (d : Descriptor) (e : Block) : (s.accOutput d e).phase = s.phase := by unfold State.accOutput; split <;> rfl
@[simp] theorem State.accOutput_outcome (s : State) (d : Descriptor) (e : Block) : (s.accOutput d e).outcome = s.outcome := by unfold State.accOutput; split <;> rfl
@[simp] theorem State.accOutput_regs (s : State) (d : Descriptor) (e : Block) : (s.accOutput d e).regs = s.regs := by unfold State.accOutput; split <;> rfl
@[simp] theorem State.accOutput_keyIn (s : State) (d : Descriptor) (e : Block) : (s.accOutput d e).keyIn = s.keyIn := by unfold State.accOutput; split <;> rfl
@[simp] theorem State.accOutput_accOp (s : State) (d : Descriptor) (e : Block) : (s.accOutput d e).accOp = s.accOp := by unfold State.accOutput; split <;> rfl
@[simp] theorem State.accOutput_accWait (s : State) (d : Descriptor) (e : Block) : (s.accOutput d e).accWait = s.accWait := by unfold State.accOutput; split <;> rfl
@[simp] theorem State.accOutput_inbox (s : State) (d : Descriptor) (e : Block) : (s.accOutput d e).inbox = s.inbox := by unfold State.accOutput; split <;> rfl
@[simp] theorem State.accOutput_trace (s : State) (d : Descriptor) (e : Block) : (s.accOutput d e).trace = s.trace := by unfold State.accOutput; split <;> rfl
@[simp] theorem State.accOutput_draws (s : State) (d : Descriptor) (e : Block) : (s.accOutput d e).draws = s.draws := by unfold State.accOutput; split <;> rfl

/-- A state update by the accelerator's output touches data RAM or the slots, never both (R115). -/
theorem State.accOutput_cases (s : State) (d : Descriptor) (e : Block) :
    (flagSet d.param s.cfg.pRedirect = true ∧ s.accOutput d e = s.setSlots (s.slots.redirect d.outSlot e)) ∨
    (flagSet d.param s.cfg.pRedirect = false ∧ s.accOutput d e = s.setRam (memWrite s.ram d.dst e)) := by
  unfold State.accOutput
  cases flagSet d.param s.cfg.pRedirect <;> simp

/-- The bytes stored by a write of consecutive bytes from `a`, and no others, read differently after it. -/
theorem Memory.read_write_other (m : Memory) (a : Word) (bs : List Byte) (x : Nat)
    (h : ∀ i < bs.length, x ≠ (a + BitVec.ofNat 32 i).toNat) : (m.write a bs).read x = m.read x := by
  induction bs generalizing m a with
  | nil => rfl
  | cons b bs ih =>
    rw [Memory.write, ih]
    · unfold Memory.read
      rw [cellsLookup_insert_other]
      simpa using h 0 (by simp)
    · intro i hi
      have := h (i + 1) (by simpa using hi)
      rwa [BitVec.ofNat_add, BitVec.add_comm (BitVec.ofNat 32 i), ← BitVec.add_assoc] at this

/-- A byte of a write no longer than the address space reads back. -/
theorem Memory.read_write_self (m : Memory) (a : Word) (bs : List Byte) (hb : bs.length ≤ 2 ^ 32) (i : Nat)
    (hi : i < bs.length) : (m.write a bs).read (a + BitVec.ofNat 32 i).toNat = bs[i] := by
  induction bs generalizing m a i with
  | nil => simp at hi
  | cons b bs ih =>
    rw [List.length_cons] at hb hi
    rw [Memory.write]
    cases i with
    | zero =>
      rw [Memory.read_write_other]
      · simp [Memory.read, cellsLookup_insert_self]
      · intro j hj hEq
        have ha := a.isLt
        simp only [BitVec.toNat_add, BitVec.toNat_ofNat, Nat.zero_mod, Nat.add_zero] at hEq
        have h1 : BitVec.toNat (1 : Word) = 1 := rfl
        omega
    | succ n =>
      have := ih (cellsInsert m a.toNat b) (a + 1) (by omega) n (by omega)
      rw [BitVec.ofNat_add, BitVec.add_comm (BitVec.ofNat 32 n), ← BitVec.add_assoc]
      simpa using this

theorem Memory.write_wf {m : Memory} (h : m.wf) (a : Word) (bs : List Byte) : (m.write a bs).wf := by
  induction bs generalizing m a with
  | nil => exact h
  | cons b bs ih => exact ih (cellsInsert_wf h a.isLt b) _

theorem memWrite_wf {m : Memory} (h : m.wf) (a : Word) (b : Block) : (memWrite m a b).wf := Memory.write_wf h a _

/-- `MemRead` after `MemWrite` at the same address gives the block written (R50). -/
theorem memRead_memWrite (m : Memory) (a : Word) (b : Block) : memRead (memWrite m a b) a = b := by
  ext i hi
  rw [memRead, Vector.getElem_ofFn, memWrite, Memory.read_write_self _ _ _ (by simp) i (by simpa using hi)]
  simp

/-- A 16-byte store leaves every other byte as it was. -/
theorem read_memWrite_other (m : Memory) (a : Word) (b : Block) (x : Nat)
    (h : ∀ i < 16, x ≠ (a + BitVec.ofNat 32 i).toNat) : (memWrite m a b).read x = m.read x :=
  Memory.read_write_other m a _ x (by simpa using h)

@[simp] theorem State.buf_writeBuf (s : State) (b : Block) : (s.writeBuf b).buf = b := memRead_memWrite _ _ _

/-- `Buf` depends on data RAM and `BUF_ADDR` alone. -/
theorem State.buf_eq (s : State) : s.buf = memRead s.ram s.cfg.bufAddr := rfl

/-! The busy bit is a view of `accOp`. -/

@[simp] theorem State.setKeys_accBusy (s : State) (v : KeyStore) : (s.setKeys v).accBusy = s.accBusy := rfl
@[simp] theorem State.setSwKey_accBusy (s : State) (v : Option Block) : (s.setSwKey v).accBusy = s.accBusy := rfl
@[simp] theorem State.setTrig_accBusy (s : State) (v : Bool) : (s.setTrig v).accBusy = s.accBusy := rfl
@[simp] theorem State.setPhase_accBusy (s : State) (v : Phase) : (s.setPhase v).accBusy = s.accBusy := rfl
@[simp] theorem State.setOutcome_accBusy (s : State) (v : RunOutcome) : (s.setOutcome v).accBusy = s.accBusy := rfl
@[simp] theorem State.setRam_accBusy (s : State) (v : Memory) : (s.setRam v).accBusy = s.accBusy := rfl
@[simp] theorem State.setRegs_accBusy (s : State) (v : AccRegs) : (s.setRegs v).accBusy = s.accBusy := rfl
@[simp] theorem State.setKeyIn_accBusy (s : State) (v : Key256) : (s.setKeyIn v).accBusy = s.accBusy := rfl
@[simp] theorem State.setAccWait_accBusy (s : State) (v : Option Nat) : (s.setAccWait v).accBusy = s.accBusy := rfl
@[simp] theorem State.setSlots_accBusy (s : State) (v : Slots) : (s.setSlots v).accBusy = s.accBusy := rfl
@[simp] theorem State.setInbox_accBusy (s : State) (v : List Byte) : (s.setInbox v).accBusy = s.accBusy := rfl
@[simp] theorem State.setTrace_accBusy (s : State) (v : List Event) : (s.setTrace v).accBusy = s.accBusy := rfl
@[simp] theorem State.setDraws_accBusy (s : State) (v : Draws) : (s.setDraws v).accBusy = s.accBusy := rfl
@[simp] theorem State.emit_accBusy (s : State) (e : Event) : (s.emit e).accBusy = s.accBusy := rfl
@[simp] theorem State.writeBuf_accBusy (s : State) (b : Block) : (s.writeBuf b).accBusy = s.accBusy := rfl
@[simp] theorem State.replyBlock_accBusy (s : State) (b : Block) : (s.replyBlock b).accBusy = s.accBusy := rfl
@[simp] theorem State.hostSend_accBusy (s : State) (b : List Byte) : (s.hostSend b).accBusy = s.accBusy := rfl
@[simp] theorem State.assertTrig_accBusy (s : State) : s.assertTrig.accBusy = s.accBusy := rfl
@[simp] theorem State.deassertTrig_accBusy (s : State) : s.deassertTrig.accBusy = s.accBusy := rfl
@[simp] theorem State.finish_accBusy (s : State) : s.finish.accBusy = s.accBusy := rfl
@[simp] theorem State.takeLatency_accBusy (s : State) : s.takeLatency.accBusy = s.accBusy := rfl
@[simp] theorem State.takeStatus_accBusy (s : State) : s.takeStatus.accBusy = s.accBusy := rfl
@[simp] theorem State.takeBlock_accBusy (s : State) : s.takeBlock.accBusy = s.accBusy := rfl
@[simp] theorem State.replyAck_accBusy (s : State) : s.replyAck.accBusy = s.accBusy := rfl
@[simp] theorem State.finishAck_accBusy (s : State) : s.finishAck.accBusy = s.accBusy := rfl
@[simp] theorem State.afterStatusRead_accBusy (s : State) : s.afterStatusRead.accBusy = s.accBusy := rfl
@[simp] theorem State.setAccOp_accBusy (s : State) (v : Option AccOp) : (s.setAccOp v).accBusy = v.isSome := rfl

end Sys2Proof.Machine
end

