-- ==== Sys2Proof/Laws/Steps.lean ====
section
/-! SUPPORT. Which step the machine takes, and what the bus operations and the driver's steps answer: the lemmas a proof cites
instead of unfolding them. -/

namespace Sys2Proof.Machine

/-! Alignment. -/

theorem aligned4_iff (a : Word) : aligned4 a = true ↔ a.toNat % 4 = 0 := by
  have h3 : a.toNat &&& 3 = a.toNat % 4 := Nat.and_two_pow_sub_one_eq_mod a.toNat 2
  simp only [aligned4, beq_iff_eq, ← BitVec.toNat_inj, BitVec.toNat_and, BitVec.toNat_ofNat, Nat.reducePow, Nat.reduceMod, h3,
    Nat.zero_mod]

theorem aligned4_add {a b : Word} (ha : aligned4 a = true) (hb : aligned4 b = true) : aligned4 (a + b) = true := by
  rw [aligned4_iff] at *
  rw [BitVec.toNat_add]
  omega

/-- Every register address is aligned under the constraints of R12 (R51). -/
theorem regAddr_aligned {c : Params} (h : c.registersOk) (r : Reg) : aligned4 (regAddr c r) = true := by
  obtain ⟨hb, ho, -⟩ := h
  simp only [Params.offsets, List.all_cons, List.all_nil, Bool.and_eq_true, Bool.and_true] at ho
  cases r <;> exact aligned4_add hb (by simp [ho])

theorem statusAddr_aligned {c : Params} (h : c.registersOk) : aligned4 (statusAddr c) = true := by
  obtain ⟨hb, ho, -⟩ := h
  simp only [Params.offsets, List.all_cons, List.all_nil, Bool.and_eq_true, Bool.and_true] at ho
  exact aligned4_add hb (by simp [ho])

/-! Which agent moves. -/

theorem step_of_running {s : State} (h : s.outcome = .running) : step s = runStep s := by simp [step, h]

/-- A running machine whose accelerator is not due takes a CCU step. -/
theorem step_ccu {s : State} (h : s.outcome = .running) (hd : s.accDue = false) : step s = ccuStep s.tick := by
  simp [step, h, runStep, hd]

/-- A running machine whose accelerator is due takes its completion step. -/
theorem step_acc {s : State} (h : s.outcome = .running) (hd : s.accDue = true) : step s = s.accComplete := by
  simp [step, h, runStep, hd]

theorem State.accDue_of_idle {s : State} (h : s.accBusy = false) : s.accDue = false := by simp [State.accDue, h]

theorem State.tick_of_idle {s : State} (h : s.accBusy = false) : s.tick = s := by simp [State.tick, h]

/-- A running machine with an idle accelerator takes a CCU step and nothing else. -/
theorem step_idle_acc {s : State} (h : s.outcome = .running) (hb : s.accBusy = false) : step s = ccuStep s := by
  rw [step_ccu h (State.accDue_of_idle hb), State.tick_of_idle hb]

@[simp] theorem State.tick_accBusy (s : State) : s.tick.accBusy = s.accBusy := by simp [State.accBusy]

theorem State.tick_accWait (s : State) : s.tick.accWait = if s.accBusy then s.accWait.map (· - 1) else s.accWait := by
  unfold State.tick
  split <;> simp

/-! Runs. -/

/-- A run begins with a step. -/
theorem run_succ {s t : State} (k : Nat) (h : step s = .next t) : core.run (k + 1) s = core.run k t := by
  have h' : core.step s = .next t := h
  simp only [Host.Core.run, h']

theorem run_one {s t : State} (h : step s = .next t) : core.run 1 s = .next t := run_succ 0 h

theorem run_zero (s : State) : core.run 0 s = .next s := rfl

/-- Two runs, one after the other. -/
theorem run_add {s t : State} {a : Nat} (b : Nat) (h : core.run a s = .next t) : core.run (a + b) s = core.run b t := by
  induction a generalizing s with
  | zero =>
    have hs : (Host.Outcome.next s : Result) = .next t := h
    cases hs
    rw [Nat.zero_add]
  | succ a ih =>
    rw [show a + 1 + b = (a + b) + 1 by omega]
    cases hs : step s with
    | next u =>
      rw [run_succ _ hs] at h ⊢
      exact ih h
    | fault f =>
      have hs' : core.step s = .fault f := hs
      simp [Host.Core.run, hs'] at h
    | refused r =>
      have hs' : core.step s = .refused r := hs
      simp [Host.Core.run, hs'] at h

/-! Which step a phase takes while the accelerator is idle. -/

theorem step_execFirst {s : State} {i : Instr} (h : s.outcome = .running) (hb : s.accBusy = false)
    (hp : s.phase = .execFirst i) : step s = exec i s := by simp [step_idle_acc h hb, ccuStep, hp]

theorem step_execHw {s : State} {k : HwStep} (h : s.outcome = .running) (hb : s.accBusy = false) (hp : s.phase = .execHw k) :
    step s = hwStep k s := by simp [step_idle_acc h hb, ccuStep, hp]

theorem step_execSw {s : State} {p : Block} {k : SwStep} (h : s.outcome = .running) (hb : s.accBusy = false)
    (hp : s.phase = .execSw p k) : step s = swStep p k s := by simp [step_idle_acc h hb, ccuStep, hp]

theorem step_execCalib {s : State} {c : CalibKind} {k : CalibStep} (h : s.outcome = .running) (hb : s.accBusy = false)
    (hp : s.phase = .execCalib c k) : step s = calibStep c k s := by simp [step_idle_acc h hb, ccuStep, hp]

theorem step_loop {s : State} {c : CalibKind} {i : Word} (h : s.outcome = .running) (hb : s.accBusy = false)
    (hp : s.phase = .loop c i) : step s = loopStep c i s := by simp [step_idle_acc h hb, ccuStep, hp]

theorem step_poll {s : State} (h : s.outcome = .running) (hd : s.accDue = false) (hp : s.phase = .poll) :
    step s = pollStep s.tick := by simp [step_ccu h hd, ccuStep, hp]

/-! The steps that go on. -/

theorem andThen_next {s : State} {f : State → Result} : andThen (.next s) f = f s := rfl

/-- What a sequence of two operations did when it answered a next state. -/
theorem andThen_eq_next {o : Result} {f : State → Result} {t : State} (h : andThen o f = .next t) :
    ∃ u, o = .next u ∧ f u = .next t := by
  cases o with
  | next u => exact ⟨u, rfl, h⟩
  | fault x => simp [andThen] at h
  | refused r => simp [andThen] at h

/-! The bus. -/

/-- A write to a register other than CMD sets the register and records `W` (R16, R53). -/
theorem busWrite32_set {r : Reg} {v : Word} {s : State} (ha : aligned4 (regAddr s.cfg r) = true) (hr : r ≠ .cmd) :
    busWrite32 r v s = .next ((s.setRegs (s.regs.write v r)).emit (.w (regAddr s.cfg r) v)) := by
  cases r <;> simp_all [busWrite32, State.afterWrite]

/-- A write of `START_VALUE` to CMD sets the register, records `W` and starts the engine (R112). -/
theorem busWrite32_start {s : State} (ha : aligned4 (regAddr s.cfg .cmd) = true) :
    busWrite32 .cmd s.cfg.startValue s =
      ((s.setRegs (s.regs.write s.cfg.startValue .cmd)).emit (.w (regAddr s.cfg .cmd) s.cfg.startValue)).startEngine := by
  simp [busWrite32, ha, State.afterWrite]

/-- What the engine does with a start (R112, R119). -/
theorem State.startEngine_cases (s : State) :
    (s.accBusy = true ∧ s.startEngine = .fault .startWhileBusy) ∨
    (s.accBusy = false ∧ descriptorOk s.cfg s.regs.descriptor = false ∧
      s.startEngine = .fault (.unspecifiedDescriptor s.regs.descriptor)) ∨
    (s.accBusy = false ∧ descriptorOk s.cfg s.regs.descriptor = true ∧
      s.startEngine =
        .next ((((s.setAccOp (some ⟨s.regs.descriptor, s.keyIn⟩)).setAccWait s.draws.latency).takeLatency).emit .start)) := by
  unfold State.startEngine
  cases s.accBusy <;> cases descriptorOk s.cfg s.regs.descriptor <;> simp

@[simp] theorem busyBit_statusWord (x : BitVec 31) (b : Bool) : busyBit (statusWord x b) = b := by
  cases b <;> simp [busyBit, statusWord]

@[simp] theorem State.busyBit_statusRead (s : State) : busyBit s.statusRead = s.accBusy := busyBit_statusWord _ _

/-! encrypt-hw, step by step (R98). -/

/-- The five events of HW2 (R102). -/
def programEvents (c : Params) (k : KeyStore) : List Event :=
  [.w (regAddr c .src) c.bufAddr, .w (regAddr c .dst) (k.dstWord c), .w (regAddr c .len) 16#32,
   .w (regAddr c .param) (k.paramWord c), .w (regAddr c .keyslot) (k.slot.setWidth 32)]

/-- HW1 under the constraints of R12. -/
theorem hwKeyCopy_next {s : State} (h : aligned4 s.cfg.keyRegion = true) :
    hwKeyCopy s = .next ((if s.keys.hostKey then (s.setKeyIn s.keys.material).emit (.k s.keys.material) else s).setPhase
      (.execHw .hw2)) := by
  unfold hwKeyCopy keyRegionWrite
  cases s.keys.hostKey <;> simp [h, andThen]

/-- HW2 under the constraints of R12. -/
theorem hwProgram_next {s : State} (h : s.cfg.registersOk) :
    hwProgram s = .next (((s.setRegs ⟨s.cfg.bufAddr, s.keys.dstWord s.cfg, 16#32, s.keys.paramWord s.cfg,
      s.keys.slot.setWidth 32, s.regs.cmd⟩).setTrace (s.trace ++ programEvents s.cfg s.keys)).setPhase (.execHw .hw3)) := by
  have ha := fun r => regAddr_aligned h r
  simp only [hwProgram, busWrite32, ha, State.afterWrite, andThen, State.emit_cfg, State.setRegs_cfg, if_true]
  refine congrArg Host.Outcome.next (State.ext ?_ ?_ ?_ ?_ ?_ ?_ ?_ ?_ ?_ ?_ ?_ ?_ ?_ ?_ ?_) <;>
    simp [KeyStore.descriptor, AccRegs.write, programEvents]

/-- One iteration of the busy-poll under the constraints of R12 (R105). -/
theorem pollStep_next {s : State} (h : s.cfg.registersOk) :
    pollStep s = .next (s.afterStatusRead.setPhase (if s.accBusy then .poll else .execHw .hw6)) := by
  simp [pollStep, statusAddr_aligned h]

end Sys2Proof.Machine
end

