-- ==== Sys2Proof/Laws/Moves.lean ====
section
/-! SUPPORT. Inversion: what the shared operations, a command's first step and a step of the machine have done when they
answered a next state. A proof about every step cites `step_cases` and `exec_cases` and unfolds nothing. -/

namespace Sys2Proof.Machine

/-! What a meaning did when it answered a next state. -/

theorem hwKeyCopy_eq_next {s t : State} (h : hwKeyCopy s = .next t) :
    t = ((s.setKeyIn (if s.keys.hostKey then s.keys.material else s.keyIn)).setTrace
      (s.trace ++ if s.keys.hostKey then [.k s.keys.material] else [])).setPhase (.execHw .hw2) := by
  unfold hwKeyCopy keyRegionWrite at h
  cases hk : s.keys.hostKey <;> cases ha : aligned4 s.cfg.keyRegion <;> simp [hk, ha, andThen] at h <;> subst h <;>
    apply State.ext <;> simp

theorem busWrite32_set_eq_next {r : Reg} {v : Word} {s t : State} (hr : r ≠ .cmd) (h : busWrite32 r v s = .next t) :
    t = (s.setRegs (s.regs.write v r)).emit (.w (regAddr s.cfg r) v) := by
  unfold busWrite32 at h
  cases ha : aligned4 (regAddr s.cfg r)
  · simp [ha] at h
  · cases r <;> simp_all [State.afterWrite]

theorem hwProgram_eq_next {s t : State} (h : hwProgram s = .next t) :
    t = ((s.setRegs ⟨s.cfg.bufAddr, s.keys.dstWord s.cfg, 16#32, s.keys.paramWord s.cfg,
      s.keys.slot.setWidth 32, s.regs.cmd⟩).setTrace (s.trace ++ programEvents s.cfg s.keys)).setPhase (.execHw .hw3) := by
  unfold hwProgram at h
  obtain ⟨s1, h1, h⟩ := andThen_eq_next h
  obtain ⟨s2, h2, h⟩ := andThen_eq_next h
  obtain ⟨s3, h3, h⟩ := andThen_eq_next h
  obtain ⟨s4, h4, h⟩ := andThen_eq_next h
  obtain ⟨s5, h5, h⟩ := andThen_eq_next h
  have e1 := busWrite32_set_eq_next (by decide) h1
  have e2 := busWrite32_set_eq_next (by decide) h2
  have e3 := busWrite32_set_eq_next (by decide) h3
  have e4 := busWrite32_set_eq_next (by decide) h4
  have e5 := busWrite32_set_eq_next (by decide) h5
  simp only [Host.Outcome.next.injEq] at h
  subst h e5 e4 e3 e2 e1
  apply State.ext <;> simp [KeyStore.descriptor, AccRegs.write, programEvents]

theorem hwStart_eq_next {s t : State} (h : hwStart s = .next t) :
    s.accBusy = false ∧ descriptorOk s.cfg s.regs.descriptor = true ∧
    t = (((((s.setRegs { s.regs with cmd := s.cfg.startValue }).setAccOp (some ⟨s.regs.descriptor, s.keyIn⟩)).setAccWait
      s.draws.latency).takeLatency).setTrace
      (s.trace ++ [.w (regAddr s.cfg .cmd) s.cfg.startValue, .start])).setPhase .poll := by
  unfold hwStart at h
  obtain ⟨u, h1, h⟩ := andThen_eq_next h
  simp only [Host.Outcome.next.injEq] at h
  subst h
  cases ha : aligned4 (regAddr s.cfg .cmd)
  · simp [busWrite32, ha] at h1
  · rw [busWrite32_start ha] at h1
    rcases State.startEngine_cases ((s.setRegs (s.regs.write s.cfg.startValue .cmd)).emit
      (.w (regAddr s.cfg .cmd) s.cfg.startValue)) with ⟨hb, he⟩ | ⟨hb, hd, he⟩ | ⟨hb, hd, he⟩ <;> rw [he] at h1
    · cases h1
    · cases h1
    · simp only [Host.Outcome.next.injEq] at h1
      subst h1
      refine ⟨by simpa using hb, by simpa [AccRegs.descriptor, AccRegs.write] using hd, ?_⟩
      apply State.ext <;> simp [AccRegs.write, AccRegs.descriptor]

theorem pollStep_eq_next {s t : State} (h : pollStep s = .next t) :
    t = s.afterStatusRead.setPhase (if s.accBusy then .poll else .execHw .hw6) := by
  unfold pollStep at h
  cases ha : aligned4 (statusAddr s.cfg) <;> simp [ha] at h
  exact h.symm

/-- Everything the software encryption can do (R128): `e` is what the buffer holds afterwards. -/
theorem State.swEncrypt_cases (s : State) (p : Block) :
    ∃ (e : Block) (m : Memory) (d : Draws),
      s.swEncrypt p = { s with ram := m, draws := d } ∧ memRead m s.cfg.bufAddr = e ∧
      (s.keys.length = .l256 → e = s.buf ∧ m = s.ram) ∧
      (s.keys.length = .l128 → m = memWrite s.ram s.cfg.bufAddr e ∧ ∀ k, s.swKey = some k → e = aes128 k p) := by
  unfold State.swEncrypt
  cases hl : s.keys.length with
  | l256 => exact ⟨s.buf, s.ram, s.draws, rfl, rfl, fun _ => ⟨rfl, rfl⟩, by simp⟩
  | l128 =>
    cases hk : s.swKey with
    | none =>
      exact ⟨s.draws.block, memWrite s.ram s.cfg.bufAddr s.draws.block, s.takeBlock.draws,
        by apply State.ext <;> simp [hk], memRead_memWrite _ _ _, by simp, by simp⟩
    | some k =>
      exact ⟨aes128 k p, memWrite s.ram s.cfg.bufAddr (aes128 k p), s.draws,
        by apply State.ext <;> simp [hk], memRead_memWrite _ _ _, by simp, by simp⟩

/-- Everything the completion of an operation can do (R115): `e` is the ciphertext, or a free value. -/
theorem State.accFinish_cases (s : State) (op : AccOp) (size : KeyLength) :
    ∃ (e : Block) (d : Draws),
      (∀ e', accCipher s.cfg s.slots op (memRead s.ram op.desc.src) size = some e' → e = e') ∧
      ((flagSet op.desc.param s.cfg.pRedirect = true ∧ s.accFinish op size =
        { s with slots := s.slots.redirect op.desc.outSlot e, accOp := none, draws := d, trace := s.trace ++ [.done] }) ∨
       (flagSet op.desc.param s.cfg.pRedirect = false ∧ s.accFinish op size =
        { s with ram := memWrite s.ram op.desc.dst e, accOp := none, draws := d, trace := s.trace ++ [.done] })) := by
  unfold State.accFinish State.accOutput
  cases accCipher s.cfg s.slots op (memRead s.ram op.desc.src) size with
  | none =>
    refine ⟨s.draws.block, s.takeBlock.draws, by simp, ?_⟩
    cases flagSet op.desc.param s.cfg.pRedirect
    · exact .inr ⟨rfl, by apply State.ext <;> simp⟩
    · exact .inl ⟨rfl, by apply State.ext <;> simp⟩
  | some e =>
    refine ⟨e, s.draws, by simp, ?_⟩
    cases flagSet op.desc.param s.cfg.pRedirect
    · exact .inr ⟨rfl, by apply State.ext <;> simp⟩
    · exact .inl ⟨rfl, by apply State.ext <;> simp⟩

/-- Everything a command's first step can do when it answers a next state. -/
theorem exec_cases {i : Instr} {s t : State} (h : exec i s = .next t) :
    (∃ k w, t = ((s.setKeys k).setSwKey w).finishAck ∧ i.command ∈ [Command.loadKey128, .loadKey256, .reset]) ∨
    (∃ slot dest b len, i = .selectKeyslot slot dest b ∧ keyLengthOfByte b = some len ∧
      t = (s.setKeys ⟨s.keys.material, len, slot, dest⟩).finishAck) ∨
    (∃ p, i = .encryptHw p ∧ t = (s.writeBuf p).setPhase (.execHw .hw1)) ∨
    (∃ p, i = .encryptSw p ∧ t = (s.writeBuf p).setPhase (.execSw p .sw1)) ∨
    (∃ c n, (i = .calibNop n ∨ i = .calibDiv n) ∧ t = s.assertTrig.setPhase (.loop c n)) := by
  cases i with
  | loadKey128 k =>
    cases h
    exact .inl ⟨_, _, rfl, by simp [Instr.command]⟩
  | loadKey256 k =>
    cases h
    exact .inl ⟨_, _, rfl, by simp [Instr.command]⟩
  | reset =>
    cases h
    exact .inl ⟨_, _, rfl, by simp [Instr.command]⟩
  | selectKeyslot slot dest b =>
    simp only [exec, execSelectKeyslot] at h
    split at h
    · rename_i len hl
      cases h
      exact .inr (.inl ⟨slot, dest, b, len, rfl, hl, rfl⟩)
    · cases h
  | encryptHw p =>
    cases h
    exact .inr (.inr (.inl ⟨p, rfl, rfl⟩))
  | encryptSw p =>
    cases h
    exact .inr (.inr (.inr (.inl ⟨p, rfl, rfl⟩)))
  | memRead a n => cases h
  | memWrite a w => cases h
  | memRead32 a => cases h
  | call a => cases h
  | calibNop n =>
    cases h
    exact .inr (.inr (.inr (.inr ⟨.nop, n, .inl rfl, rfl⟩)))
  | calibDiv n =>
    cases h
    exact .inr (.inr (.inr (.inr ⟨.div, n, .inr rfl, rfl⟩)))

/-- The checks of R159 decide whether a command's first step goes on: one that passes them goes on in every state. -/
theorem exec_of_accepted {i : Instr} (h : accepted i = true) (s : State) : ∃ t, exec i s = .next t := by
  cases i with
  | selectKeyslot slot dest b =>
    obtain ⟨len, hl⟩ := Option.isSome_iff_exists.1 h
    exact ⟨_, by rw [exec, execSelectKeyslot, hl]⟩
  | memRead _ _ => cases h
  | memWrite _ _ => cases h
  | memRead32 _ => cases h
  | call _ => cases h
  | _ => exact ⟨_, rfl⟩

/-- A command that fails the checks of R159 is refused, for the same reason in every state. -/
theorem exec_of_not_accepted {i : Instr} (h : accepted i = false) : ∃ r, ∀ s, exec i s = .refused r := by
  cases i with
  | selectKeyslot slot dest b =>
    have hl : keyLengthOfByte b = none := by simpa [accepted] using h
    exact ⟨_, fun s => by rw [exec, execSelectKeyslot, hl]⟩
  | memRead _ _ => exact ⟨_, fun _ => rfl⟩
  | memWrite _ _ => exact ⟨_, fun _ => rfl⟩
  | memRead32 _ => exact ⟨_, fun _ => rfl⟩
  | call _ => exact ⟨_, fun _ => rfl⟩
  | _ => cases h

/-- What the taking of a frame did when it answered a next state (R83, R159). -/
theorem takeFrame_eq_next {i : Instr} {rest : List Byte} {s t : State} (h : takeFrame i rest s = .next t) :
    accepted i = true ∧ t = (s.setInbox rest).setPhase (.execFirst i) := by
  unfold takeFrame at h
  cases ha : accepted i with
  | true =>
    rw [ha, if_pos rfl] at h
    cases h
    exact ⟨rfl, rfl⟩
  | false =>
    obtain ⟨r, hr⟩ := exec_of_not_accepted ha
    rw [ha, if_neg Bool.false_ne_true, hr] at h
    cases h

/-! The step. -/

/-- Everything a step can do when it answers a next state. -/
inductive Moved (s : State) : State → Prop where
  | complete (op : AccOp) (size : KeyLength) (hd : s.accDue = true) (ho : s.accOp = some op)
      (hs : sizeOf? s.cfg op.desc.param = some size) : Moved s (s.accFinish op size)
  | wait (hp : s.phase = .idle) (hi : decode s.cfg s.inbox = .incomplete) : Moved s s.tick
  | take (i : Instr) (rest : List Byte) (hp : s.phase = .idle) (hi : decode s.cfg s.inbox = .frame i rest)
      (ha : accepted i = true) : Moved s ((s.tick.setInbox rest).setPhase (.execFirst i))
  | command (i : Instr) (t : State) (hp : s.phase = .execFirst i) (he : exec i s.tick = .next t) : Moved s t
  | keyCopy (hp : s.phase = .execHw .hw1) :
      Moved s (((s.tick.setKeyIn (if s.keys.hostKey then s.keys.material else s.keyIn)).setTrace
        (s.trace ++ if s.keys.hostKey then [.k s.keys.material] else [])).setPhase (.execHw .hw2))
  | program (hp : s.phase = .execHw .hw2) :
      Moved s (((s.tick.setRegs ⟨s.cfg.bufAddr, s.keys.dstWord s.cfg, 16#32, s.keys.paramWord s.cfg,
        s.keys.slot.setWidth 32, s.regs.cmd⟩).setTrace (s.trace ++ programEvents s.cfg s.keys)).setPhase (.execHw .hw3))
  | hwAssert (hp : s.phase = .execHw .hw3) : Moved s (s.tick.assertTrig.setPhase (.execHw .hw4))
  | start (hp : s.phase = .execHw .hw4) (hb : s.accBusy = false) (hd : descriptorOk s.cfg s.regs.descriptor = true) :
      Moved s ((((((s.setRegs { s.regs with cmd := s.cfg.startValue }).setAccOp
        (some ⟨s.regs.descriptor, s.keyIn⟩)).setAccWait s.draws.latency).takeLatency).setTrace
        (s.trace ++ [.w (regAddr s.cfg .cmd) s.cfg.startValue, .start])).setPhase .poll)
  | poll (hp : s.phase = .poll) (hd : s.accDue = false) :
      Moved s (s.tick.afterStatusRead.setPhase (if s.accBusy then .poll else .execHw .hw6))
  | hwDeassert (hp : s.phase = .execHw .hw6) : Moved s (s.tick.deassertTrig.setPhase (.execHw .hw7))
  | hwReply (hp : s.phase = .execHw .hw7) : Moved s ((s.tick.replyBlock s.buf).finish)
  | swAssert (p : Block) (hp : s.phase = .execSw p .sw1) : Moved s (s.tick.assertTrig.setPhase (.execSw p .sw2))
  | swCompute (p : Block) (hp : s.phase = .execSw p .sw2) : Moved s ((s.tick.swEncrypt p).setPhase (.execSw p .sw3))
  | swDeassert (p : Block) (hp : s.phase = .execSw p .sw3) : Moved s (s.tick.deassertTrig.setPhase (.execSw p .sw4))
  | swReply (p : Block) (hp : s.phase = .execSw p .sw4) : Moved s ((s.tick.replyBlock s.buf).finish)
  | loopEnd (c : CalibKind) (hp : s.phase = .loop c 0#32) : Moved s (s.tick.setPhase (.execCalib c .c3))
  | loopBody (c : CalibKind) (i : Word) (hp : s.phase = .loop c i) (hi : i ≠ 0#32) :
      Moved s (s.tick.setPhase (.loop c (i - 1#32)))
  | calibDeassert (c : CalibKind) (hp : s.phase = .execCalib c .c3) :
      Moved s (s.tick.deassertTrig.setPhase (.execCalib c .c4))
  | calibReply (c : CalibKind) (hp : s.phase = .execCalib c .c4) : Moved s (s.tick.replyAck.finish)

/-- Once for every step: what it did when it answered a next state. -/
theorem step_cases {s t : State} (h : step s = .next t) : s.outcome = .running ∧ Moved s t := by
  cases ho : s.outcome with
  | refused r => simp [step, ho] at h
  | faulted f => simp [step, ho] at h
  | running =>
    refine ⟨rfl, ?_⟩
    cases hd : s.accDue with
    | true =>
      rw [step_acc ho hd] at h
      unfold State.accComplete at h
      cases hop : s.accOp with
      | none => simp [State.accDue, State.accBusy, hop] at hd
      | some op =>
        simp only [hop] at h
        cases hs : sizeOf? s.cfg op.desc.param with
        | none => simp [hs] at h
        | some size =>
          simp only [hs, Host.Outcome.next.injEq] at h
          exact h ▸ .complete op size hd hop hs
    | false =>
      rw [step_ccu ho hd] at h
      have hb : s.tick.buf = s.buf := by simp [State.buf]
      cases hp : s.phase with
      | idle =>
        simp only [ccuStep, State.tick_phase, hp, serviceLoop, State.tick_cfg, State.tick_inbox] at h
        cases hi : decode s.cfg s.inbox with
        | incomplete =>
          simp only [hi, Host.Outcome.next.injEq] at h
          exact h ▸ .wait hp hi
        | unknownOpcode op => simp [hi] at h
        | frame i rest =>
          simp only [hi] at h
          obtain ⟨ha, rfl⟩ := takeFrame_eq_next h
          exact .take i rest hp hi ha
      | execFirst i =>
        simp only [ccuStep, State.tick_phase, hp] at h
        exact .command i t hp h
      | execHw k =>
        simp only [ccuStep, State.tick_phase, hp] at h
        cases k with
        | hw1 =>
          have hn := hwKeyCopy_eq_next h
          simp only [State.tick_keys, State.tick_keyIn, State.tick_trace] at hn
          exact hn ▸ .keyCopy hp
        | hw2 =>
          have hn := hwProgram_eq_next h
          simp only [State.tick_keys, State.tick_cfg, State.tick_regs, State.tick_trace] at hn
          exact hn ▸ .program hp
        | hw3 =>
          cases h
          exact .hwAssert hp
        | hw4 =>
          obtain ⟨h1, h2, h3⟩ := hwStart_eq_next h
          have hbz : s.accBusy = false := by simpa using h1
          rw [State.tick_of_idle hbz] at h2 h3
          exact h3 ▸ .start hp hbz h2
        | hw6 =>
          cases h
          exact .hwDeassert hp
        | hw7 =>
          cases h
          rw [hb]
          exact .hwReply hp
      | execSw p k =>
        simp only [ccuStep, State.tick_phase, hp] at h
        cases k with
        | sw1 =>
          cases h
          exact .swAssert p hp
        | sw2 =>
          cases h
          exact .swCompute p hp
        | sw3 =>
          cases h
          exact .swDeassert p hp
        | sw4 =>
          cases h
          rw [hb]
          exact .swReply p hp
      | execCalib c k =>
        simp only [ccuStep, State.tick_phase, hp] at h
        cases k with
        | c3 =>
          cases h
          exact .calibDeassert c hp
        | c4 =>
          cases h
          exact .calibReply c hp
      | poll =>
        simp only [ccuStep, State.tick_phase, hp] at h
        have hn := pollStep_eq_next h
        simp only [State.tick_accBusy] at hn
        exact hn ▸ .poll hp hd
      | loop c i =>
        simp only [ccuStep, State.tick_phase, hp, loopStep] at h
        split at h
        · rename_i hi
          subst hi
          cases h
          exact .loopEnd c hp
        · rename_i hi
          cases h
          exact .loopBody c i hp hi
end Sys2Proof.Machine
end

