-- ==== Sys2Proof/Laws/PerInstr.lean ====
section
/-! SUPPORT. Statements about every instruction, one lemma per constructor. -/

namespace Sys2Proof.Laws.FrameShape

/-- The frame of an instruction is its opcode byte and exactly `L(op)` parameter bytes (R63, R64). -/
def Statement (i : Instr) : Prop :=
  ∀ c : Params, (encode c i).head? = some (c.opcode i.command) ∧ i.paramBytes.length = i.command.paramLength

theorem loadKey128 (k : Block) : Statement (.loadKey128 k) := fun _ => ⟨rfl, by simp [Instr.paramBytes, Instr.command, Command.paramLength]⟩
theorem loadKey256 (k : Key256) : Statement (.loadKey256 k) := fun _ => ⟨rfl, by simp [Instr.paramBytes, Instr.command, Command.paramLength]⟩
theorem selectKeyslot (slot dest : SlotId) (lenByte : Byte) : Statement (.selectKeyslot slot dest lenByte) := fun _ => ⟨rfl, rfl⟩
theorem encryptHw (p : Block) : Statement (.encryptHw p) := fun _ => ⟨rfl, by simp [Instr.paramBytes, Instr.command, Command.paramLength]⟩
theorem encryptSw (p : Block) : Statement (.encryptSw p) := fun _ => ⟨rfl, by simp [Instr.paramBytes, Instr.command, Command.paramLength]⟩
theorem reset : Statement .reset := fun _ => ⟨rfl, rfl⟩
theorem memRead (addr length : Word) : Statement (.memRead addr length) := fun _ => ⟨rfl, rfl⟩
theorem memWrite (addr word : Word) : Statement (.memWrite addr word) := fun _ => ⟨rfl, rfl⟩
theorem memRead32 (addr : Word) : Statement (.memRead32 addr) := fun _ => ⟨rfl, rfl⟩
theorem call (addr : Word) : Statement (.call addr) := fun _ => ⟨rfl, rfl⟩
theorem calibNop (n : Word) : Statement (.calibNop n) := fun _ => ⟨rfl, rfl⟩
theorem calibDiv (n : Word) : Statement (.calibDiv n) := fun _ => ⟨rfl, rfl⟩

end Sys2Proof.Laws.FrameShape
end

