-- ==== Sys2Proof/Tests/Slice0.lean ====
section
/-! SUPPORT. The model's own tests: well-formedness, the checks on the parameters, frames written out from 30_encoding.md,
vectors of 95_test_vectors.md (named in each comment), single steps, and for every obligation with hypotheses a state that
meets them. Fixture TF gives the concrete bytes. -/

namespace Sys2Proof.Tests

open Sys2Proof.Machine

set_option Elab.async false

/-- 16 bytes written as one hexadecimal number, byte 0 the most significant. -/
def blk (n : Nat) : Block := Vector.ofFn fun i => BitVec.ofNat 8 (n >>> (8 * (15 - i.val)))

/-- 32 bytes written as one hexadecimal number, byte 0 the most significant. -/
def key (n : Nat) : Key256 := Vector.ofFn fun i => BitVec.ofNat 8 (n >>> (8 * (31 - i.val)))

/-- A word of the AES key schedule written as one number, byte 0 the most significant. -/
def aesWord (n : Nat) : AesWord := Vector.ofFn fun i => BitVec.ofNat 8 (n >>> (8 * (3 - i.val)))

/-- The plaintext of the AD vectors. -/
def plain : Block := blk 0x00112233445566778899aabbccddeeff

/-- The 16-byte key of the KS and SW vectors. -/
def key16 : Block := blk 0x000102030405060708090a0b0c0d0e0f

/-- The 32-byte key of the KS and AD vectors. -/
def key32 : Key256 := key 0x000102030405060708090a0b0c0d0e0f101112131415161718191a1b1c1d1e1f

/-- The machine after the reset command under fixture TF, with values given for the next draws. -/
def base : State where
  cfg := .fixture
  keys := ⟨zeroKey, .l128, 0, 0⟩
  swKey := some zeroBlock
  trig := false
  phase := .idle
  outcome := .running
  ram := []
  regs := ⟨0, 0, 0, 0, 0, 0⟩
  keyIn := zeroKey
  accOp := none
  accWait := none
  slots := ⟨[(2, fixtureSlotKey)], [], []⟩
  inbox := []
  trace := []
  draws := ⟨[some 1], [5, 6], [key16], 0⟩

/-- `base` with these bytes on the wire. -/
def withWire (bytes : List Byte) : State := { base with inbox := bytes }

/-- `base` with this key store. -/
def withKeys (m : Key256) (l : KeyLength) (slot dest : SlotId) : State := { base with keys := ⟨m, l, slot, dest⟩ }

/-- `base` with this command begun: its frame taken, its first step next. -/
def begun (i : Instr) : State := { base with phase := .execFirst i }

/-- `base` between HW2 and HW3 or HW4, with the descriptor of its key store in the registers. -/
def programmed (k : HwStep) (trig : Bool) : State :=
  { base with
    phase := .execHw k, trig := trig, trace := if trig then [.t1] else [],
    regs := ⟨0x20000000, 0x20000000, 16, 9, 0, 0⟩ }

/-- `base` in the busy-poll, the operation in flight the one of its key store. -/
def polling (wait : Option Nat) : State :=
  { base with
    phase := .poll, trig := true, trace := [.t1, .start], accWait := wait,
    accOp := some ⟨⟨0x20000000, 0x20000000, 16, 9, 0⟩, zeroKey⟩ }

/-- `polling`, the operation redirected to slot 7. -/
def pollingRedirected : State :=
  { polling (some 0) with
    keys := ⟨zeroKey, .l128, 2, 7⟩, accOp := some ⟨⟨0x20000000, 7, 16, 0x11, 2⟩, zeroKey⟩ }

/-! ## Well-formedness and the constraints of R12 -/

/-- KS7: a length byte 0x18 is no syntax of R76. -/
theorem test_wellFormed_lenByte :
    WellFormed (.selectKeyslot 3 5 0x18) = false ∧ WellFormed (.selectKeyslot 3 5 0x10) = true ∧
      WellFormed (.selectKeyslot 3 5 0x20) = true := by decide

theorem test_fixture_valid : Params.fixture.Valid := by decide +kernel

theorem test_refuse_opcodes : ¬ { Params.fixture with opcReset := 0xa0 }.opcodesDistinct := by decide +kernel

theorem test_refuse_misaligned_base : ¬ { Params.fixture with accBase := 0x10000002 }.registersOk := by decide +kernel

theorem test_refuse_equal_offsets : ¬ { Params.fixture with offDst := 0 }.registersOk := by decide +kernel

theorem test_refuse_keyRegion_overlap : ¬ { Params.fixture with keyRegion := 0x0ffffffc }.keyRegionOk := by decide +kernel

theorem test_refuse_flag_two_bits : ¬ { Params.fixture with pBase := 3 }.paramFieldsOk := by decide +kernel

theorem test_refuse_flags_overlap : ¬ { Params.fixture with pRedirect := 8 }.paramFieldsOk := by decide +kernel

theorem test_refuse_ksize_overlap : ¬ { Params.fixture with ksizeShift := 2 }.paramFieldsOk := by decide +kernel

theorem test_refuse_buf_overlap : ¬ { Params.fixture with bufAddr := 0x10000110 }.bufOk := by decide +kernel

theorem test_refuse_empty_body : ¬ { Params.fixture with divBody := 0 }.bodiesOk := by decide +kernel

theorem test_refuse_slotKeys_order :
    ¬ { Params.fixture with slotKeys128 := [(3, zeroBlock), (2, zeroBlock)] }.slotKeysOk := by decide +kernel

/-! ## Decoding: one frame per command, written out from R64 and R68 to R75 -/

/-- KS2. -/
theorem test_decode_loadKey128 :
    decode .fixture [0xa0, 0, 1, 2, 3, 4, 5, 6, 7, 8, 9, 10, 11, 12, 13, 14, 15] = .frame (.loadKey128 key16) [] := by
  decide +kernel

/-- KS4. -/
theorem test_decode_loadKey256 :
    decode .fixture [0xa1, 0, 1, 2, 3, 4, 5, 6, 7, 8, 9, 10, 11, 12, 13, 14, 15,
      16, 17, 18, 19, 20, 21, 22, 23, 24, 25, 26, 27, 28, 29, 30, 31] = .frame (.loadKey256 key32) [] := by decide +kernel

/-- KS5: slot, destination and length byte, in that order. -/
theorem test_decode_selectKeyslot :
    decode .fixture [0xa2, 0x00, 0x03, 0x00, 0x05, 0x10] = .frame (.selectKeyslot 3 5 0x10) [] := by decide +kernel

theorem test_decode_encryptHw :
    decode .fixture [0xa3, 0x00, 0x11, 0x22, 0x33, 0x44, 0x55, 0x66, 0x77, 0x88, 0x99, 0xaa, 0xbb, 0xcc, 0xdd, 0xee, 0xff, 0xa5]
      = .frame (.encryptHw plain) [0xa5] := by decide +kernel

theorem test_decode_encryptSw :
    decode .fixture [0xa4, 0x00, 0x11, 0x22, 0x33, 0x44, 0x55, 0x66, 0x77, 0x88, 0x99, 0xaa, 0xbb, 0xcc, 0xdd, 0xee, 0xff]
      = .frame (.encryptSw plain) [] := by decide +kernel

/-- DI1. -/
theorem test_decode_reset : decode .fixture [0xa5, 0xa5] = .frame .reset [0xa5] := by decide +kernel

/-- DI7. -/
theorem test_decode_memRead :
    decode .fixture [0xa6, 0, 0, 0, 0, 0, 0, 0, 3] = .frame (.memRead 0 3) [] := by decide +kernel

/-- DI4. -/
theorem test_decode_memWrite :
    decode .fixture [0xa7, 0x00, 0x00, 0x10, 0x00, 0xde, 0xad, 0xbe, 0xef] = .frame (.memWrite 0x1000 0xdeadbeef) [] := by
  decide +kernel

/-- DI5. -/
theorem test_decode_memRead32 : decode .fixture [0xa8, 1, 2, 3, 4] = .frame (.memRead32 0x01020304) [] := by decide +kernel

/-- DI6. -/
theorem test_decode_call : decode .fixture [0xa9, 0x20, 0, 0, 0] = .frame (.call 0x20000000) [] := by decide +kernel

/-- CA6: the count is big-endian. -/
theorem test_decode_calibNop : decode .fixture [0xaa, 1, 0, 0, 0] = .frame (.calibNop 16777216) [] := by decide +kernel

/-- CA4. -/
theorem test_decode_calibDiv : decode .fixture [0xab, 0, 0, 1, 0] = .frame (.calibDiv 256) [] := by decide +kernel

/-- DI3, and a frame cut short (R65). -/
theorem test_decode_no_frame :
    decode .fixture [0xff, 0xa5] = .unknownOpcode 0xff ∧ decode .fixture [0xa2, 0, 3, 0, 5] = .incomplete ∧
      decode .fixture [] = .incomplete := by decide +kernel

/-- The opcode table's numbering: the first byte is bits 7 to 0, all later bits 0. -/
theorem test_tableWord : (tableWordBytes 16 0x01a2).take 6 = [0xa2, 1, 0, 0, 0, 0] ∧ (tableWordBytes 8 0x01a5).take 2 = [0xa5, 0] := by
  decide +kernel

/-- Placing an instruction: the next step runs it; a refused one, here a length byte 0, stands on the wire, exactly its frame,
and the next step refuses it. -/
theorem test_withFetchWord :
    step (base.withFetchWord 8 0xa5) = exec .reset (begun .reset) ∧
      base.withFetchWord 8 0xa2 = withWire [0xa2, 0, 0, 0, 0, 0] ∧
      step (base.withFetchWord 8 0xa2) = .refused (.unspecifiedKeyLength 0) := ⟨rfl, by decide +kernel, rfl⟩

/-! ## AES (section 1.3 and 2.8 of 95_test_vectors.md) -/

/-- Section 1.3: the finite-field examples. -/
theorem test_gmul : gmul 0x57 0x83 = 0xc1 ∧ gmul 0x57 0x13 = 0xfe ∧ xtime 0x57 = 0xae ∧ xtime 0xae = 0x47 := by decide +kernel

/-- AI1 to AI5. -/
theorem test_sbox : sbox 0 = 0x63 ∧ sbox 1 = 0x7c ∧ sbox 0x10 = 0xca ∧ sbox 0x53 = 0xed ∧ sbox 0xff = 0x16 := by decide +kernel

/-- AI6. -/
theorem test_shiftRows : shiftRows key16 = blk 0x00050a0f04090e03080d02070c01060b := by decide +kernel

/-- AI7, AI8, AI11, AI12, one column each. -/
theorem test_mixColumns :
    mixColumns (blk 0xdb135345f20a225cd4d4d4d52d26314c) = blk 0x8e4da1bc9fdc589dd5d5d7d64d7ebdf8 := by decide +kernel

/-- AI15. -/
theorem test_rcon : (List.range 10).map (fun i => rcon (i + 1)) = [0x01, 0x02, 0x04, 0x08, 0x10, 0x20, 0x40, 0x80, 0x1b, 0x36] := by
  decide +kernel

/-- AI14: the last round key of the all-zero key. -/
theorem test_keyExpansion128 :
    (keyExpansion128 zeroBlock).drop 40 =
      [aesWord 0xb4ef5bcb, aesWord 0x3e92e211, aesWord 0x23e951cf, aesWord 0x6f8f188e] := by decide +kernel

/-- F3's key expansion: words 8 to 11. -/
theorem test_keyExpansion256 :
    ((keyExpansion256 key32).drop 8).take 4 =
      [aesWord 0xa573c29f, aesWord 0xa176c498, aesWord 0xa97fce93, aesWord 0xa572c09c] := by decide +kernel

/-- F1. -/
theorem test_aes128_F1 :
    aes128 fixtureSlotKey (blk 0x3243f6a8885a308d313198a2e0370734) = blk 0x3925841d02dc09fbdc118597196a0b32 := by decide +kernel

/-- F2. -/
theorem test_aes128_F2 : aes128 key16 plain = blk 0x69c4e0d86a7b0430d8cdb78070b4c55a := by decide +kernel

/-- F3. -/
theorem test_aes256_F3 : aes256 key32 plain = blk 0x8ea2b7ca516745bfeafc49904b496089 := by decide +kernel

/-! ## Operand forms -/

/-- PE1, PE3, PE4, PE6, PE8: the parameter word under TF. -/
theorem test_paramWord :
    KeyStore.paramWord .fixture ⟨zeroKey, .l128, 0, 0⟩ = 0x09 ∧ KeyStore.paramWord .fixture ⟨zeroKey, .l128, 3, 0⟩ = 0x01 ∧
    KeyStore.paramWord .fixture ⟨zeroKey, .l128, 3, 7⟩ = 0x11 ∧ KeyStore.paramWord .fixture ⟨zeroKey, .l256, 0, 7⟩ = 0x0d ∧
    KeyStore.paramWord .fixture ⟨zeroKey, .l256, 3, 7⟩ = 0x15 := by decide +kernel

/-- PE2, PE4, PE9: the destination word under TF. -/
theorem test_dstWord :
    KeyStore.dstWord .fixture ⟨zeroKey, .l128, 0, 7⟩ = 0x20000000 ∧ KeyStore.dstWord .fixture ⟨zeroKey, .l128, 3, 7⟩ = 7 ∧
    KeyStore.dstWord .fixture ⟨zeroKey, .l128, 0xffff, 0xffff⟩ = 0xffff := by decide +kernel

/-- EX6: a length of 32 is a reserved descriptor. -/
theorem test_descriptor_len32 : descriptorOk .fixture ⟨0x20000000, 0x20000000, 32, 9, 0⟩ = false := by decide +kernel

/-- R113: the STATUS word. -/
theorem test_statusWord : statusWord 5 true = 11 ∧ statusWord 5 false = 10 := by decide +kernel

/-- A 16-byte access wraps at the top of the address space (log 13). -/
theorem test_memWrite_wraps :
    (memWrite [] 0xfffffff8 key16).read 0xffffffff = 7 ∧ (memWrite [] 0xfffffff8 key16).read 0 = 8 ∧
      (memWrite [] 0xfffffff8 key16).wf := by decide +kernel

/-! ## Single steps -/

/-- R83: a frame taken leaves the wire and opens the first step of its command, which has not run yet. -/
theorem test_takeFrame :
    base.record (step (withWire [0xaa, 0, 0, 0, 2, 0xa5])) = { begun (.calibNop 2) with inbox := [0xa5] } := by decide +kernel

/-- KS3: load-key-128 keeps bytes 16 to 31 of a 256-bit key. -/
theorem test_loadKey128 :
    (base.record (exec (.loadKey128 (blk 0xffeeddccbbaa99887766554433221100)) (withKeys key32 .l256 3 5))).keys =
      ⟨key 0xffeeddccbbaa99887766554433221100101112131415161718191a1b1c1d1e1f, .l128, 0, 0⟩ := by decide +kernel

/-- KS4: no software key after load-key-256. -/
theorem test_loadKey256 : (base.record (exec (.loadKey256 key32) base)).swKey = none := by decide +kernel

/-- KS6. -/
theorem test_selectKeyslot :
    (base.record (exec (.selectKeyslot 0xffff 0 0x20) base)).keys = ⟨zeroKey, .l256, 0xffff, 0⟩ := by decide +kernel

/-- KS7: refused, nothing written. -/
theorem test_selectKeyslot_refused :
    base.record (exec (.selectKeyslot 3 5 0x18) base) = { base with outcome := .refused (.unspecifiedKeyLength 0x18) } := by
  decide +kernel

/-- KS10: the reset command. -/
theorem test_reset :
    (base.record (exec .reset { withKeys key32 .l128 3 5 with swKey := none })) =
      { base with trace := [.rep [0x5a]] } := by decide +kernel

/-- AD1: the five writes of HW2, in order. -/
theorem test_program_trace :
    (base.record (step { base with phase := .execHw .hw2 })).trace =
      [.w 0x10000000 0x20000000, .w 0x10000004 0x20000000, .w 0x10000008 0x10, .w 0x1000000c 9, .w 0x10000010 0] := by
  decide +kernel

/-- AD1: `W(CMD)` then `Start`, and the accelerator is busy at once. -/
theorem test_start :
    (base.record (step (programmed .hw4 true))).trace = [.t1, .w 0x10000014 1, .start] ∧
      (base.record (step (programmed .hw4 true))).accBusy = true := by decide +kernel

/-- AD5: an operation on slot 2 uses the key TF gives it. -/
theorem test_accCipher_slot :
    accCipher .fixture base.slots ⟨⟨0x20000000, 0x20000000, 16, 1, 2⟩, zeroKey⟩ plain .l128 =
      some (blk 0x8df4e9aac5c7573a27d8d055d6e4d64b) := by decide +kernel

/-- AD7: slot 5 has no defined key. -/
theorem test_accCipher_undefined :
    accCipher .fixture base.slots ⟨⟨0x20000000, 0x20000000, 16, 1, 5⟩, zeroKey⟩ plain .l128 = none := by decide +kernel

/-- SW1: the software encryption leaves the ciphertext in the buffer. -/
theorem test_swEncrypt :
    ({ base with swKey := some key16 }.swEncrypt plain).buf = blk 0x69c4e0d86a7b0430d8cdb78070b4c55a := by decide +kernel

/-- CA3: one iteration counts down and does nothing else. -/
theorem test_loop :
    base.record (step { base with phase := .loop .nop 3 }) = { base with phase := .loop .nop 2 } := by decide +kernel

/-- DI4, DI7: the debug commands by name. -/
theorem test_debug_refused :
    base.record (exec (.memWrite 0x1000 0xdeadbeef) base) = { base with outcome := .refused (.outOfScope "mem-write") } ∧
      base.record (exec (.memRead 0 3) base) = { base with outcome := .refused (.outOfScope "mem-read") } := by decide +kernel

/-! ## Witnesses: for every obligation with hypotheses, states and operands that meet them all -/

/-- KeyCommandsTouchOnlyKeyState. -/
theorem witness_KeyCommandsTouchOnlyKeyState :
    ∃ t, Instr.reset.command ∈ keyCommands ∧ exec .reset (withKeys key32 .l256 3 5) = .next t := ⟨_, by decide, rfl⟩

/-- KeyStateChangesOnlyByKeyCommands: a step that changes the key store, one that changes the software key alone. -/
theorem witness_KeyStateChangesOnlyByKeyCommands :
    (∃ t, step (begun (.selectKeyslot 3 5 0x10)) = .next t ∧ t.keys ≠ base.keys) ∧
      ∃ t, step { begun .reset with swKey := none } = .next t ∧ t.keys = base.keys ∧ t.swKey ≠ none :=
  ⟨⟨_, rfl, by decide +kernel⟩, ⟨_, rfl, by decide +kernel, by decide +kernel⟩⟩

/-- DecodeOfEncode, with the longest frame and a count at its bound. -/
theorem witness_DecodeOfEncode :
    Params.fixture.opcodesDistinct ∧
      decode .fixture (encode .fixture (.loadKey256 key32) ++ [1]) = .frame (.loadKey256 key32) [1] ∧
      decode .fixture (encode .fixture (.calibNop 0xffffffff) ++ []) = .frame (.calibNop 0xffffffff) [] := by decide +kernel

/-- EncodeOfDecode. -/
theorem witness_EncodeOfDecode : decode .fixture [0xa5, 1, 2] = .frame .reset [1, 2] := by decide +kernel

/-- StepRunsDecodedInstruction, the taking of a frame: with the accelerator idle, with it busy (a state no run reaches), and a
frame that is refused. -/
theorem witness_StepRunsDecodedInstruction :
    (let s := withWire [0xa5, 0xff]
     s.outcome = .running ∧ s.phase = .idle ∧ s.accDue = false ∧ decode s.cfg s.inbox = .frame .reset [0xff] ∧
      s.accBusy = false ∧ WellFormed .reset = true ∧ debugMnemonic Instr.reset.command = none) ∧
    (let s := { polling (some 3) with phase := .idle, inbox := [0xa5] }
     s.outcome = .running ∧ s.phase = .idle ∧ s.accDue = false ∧ decode s.cfg s.inbox = .frame .reset [] ∧
      s.accBusy = true) ∧
    (let s := withWire [0xa2, 0, 1, 0, 1, 0x11]
     s.outcome = .running ∧ s.phase = .idle ∧ s.accDue = false ∧
      decode s.cfg s.inbox = .frame (.selectKeyslot 1 1 0x11) [] ∧ WellFormed (.selectKeyslot 1 1 0x11) = false) := by
  decide +kernel

/-- StepRunsDecodedInstruction, the first step of a command: with the accelerator idle, and with it busy (a state no run
reaches). -/
theorem witness_StepRunsDecodedInstruction_first :
    (let s := begun .reset
     s.outcome = .running ∧ s.accDue = false ∧ s.phase = .execFirst .reset ∧ s.accBusy = false) ∧
    (let s := { polling (some 3) with phase := .execFirst .reset }
     s.outcome = .running ∧ s.accDue = false ∧ s.phase = .execFirst .reset ∧ s.accBusy = true) := by decide +kernel

/-- The opcode bytes of TF are 0xa0 to 0xab: the bytes on either side name no command. -/
theorem opcode_ne_ff : ∀ cmd, Params.fixture.opcode cmd ≠ 0xff ∧ Params.fixture.opcode cmd ≠ 0xac ∧
    Params.fixture.opcode cmd ≠ 0x9f := by
  intro cmd
  cases cmd <;> decide +kernel

/-- UnknownOpcodeRefused. -/
theorem witness_UnknownOpcodeRefused :
    let s := withWire [0xff, 0xa5]
    s.outcome = .running ∧ s.phase = .idle ∧ s.accDue = false ∧ s.inbox = 0xff :: [0xa5] ∧
      ∀ cmd, s.cfg.opcode cmd ≠ 0xff := ⟨rfl, rfl, rfl, rfl, fun cmd => (opcode_ne_ff cmd).1⟩

/-- WaitingForFrameChangesNothing: an empty wire, and a frame one byte short. -/
theorem witness_WaitingForFrameChangesNothing :
    Params.fixture.opcodesDistinct ∧ base.inbox = [] ∧ base.accBusy = false ∧
      (withWire [0xa8, 0, 0, 0]).inbox = Params.fixture.opcode .memRead32 :: [0, 0, 0] ∧
      [(0 : Byte), 0, 0].length < Command.memRead32.paramLength := by decide +kernel

/-- DebugCommandsRefused, all four commands. -/
theorem witness_DebugCommandsRefused :
    debugMnemonic (Instr.memRead 0 3).command = some "mem-read" ∧ debugMnemonic (Instr.memWrite 0 0).command = some "mem-write" ∧
      debugMnemonic (Instr.memRead32 0).command = some "mem-read32" ∧ debugMnemonic (Instr.call 0).command = some "call" := by
  decide

/-- StopsAreTerminal: a step that refuses, and one that faults (EX5, a state no run reaches). -/
theorem witness_StopsAreTerminal :
    step (withWire [0xff]) = .refused (.unknownOpcode 0xff) ∧
      step { programmed .hw4 true with accOp := (polling (some 3)).accOp, accWait := some 3 } = .fault .startWhileBusy :=
  ⟨rfl, rfl⟩

/-- OnlySpecifiedStops, all three causes, from a state of the invariant. -/
theorem witness_OnlySpecifiedStops :
    Inv (withWire [0xff]) ∧ step (withWire [0xff]) = .refused (.unknownOpcode 0xff) ∧
      Inv (withWire [0xa9, 0, 0, 0, 0]) ∧ step (withWire [0xa9, 0, 0, 0, 0]) = .refused (.outOfScope "call") ∧
      Inv (withWire [0xa2, 0, 1, 0, 1, 0x11]) ∧
      step (withWire [0xa2, 0, 1, 0, 1, 0x11]) = .refused (.unspecifiedKeyLength 0x11) :=
  ⟨by decide +kernel, rfl, by decide +kernel, rfl, by decide +kernel, rfl⟩

/-- HostBytesWaitTheirTurn: while a command runs, and at the head of the loop with a whole frame waiting. -/
theorem witness_HostBytesWaitTheirTurn :
    (∃ t, step (programmed .hw3 false) = .next t ∧ (programmed .hw3 false).phase ≠ .idle) ∧
      ∃ t, step (withWire [0xa5]) = .next t ∧ (withWire [0xa5]).phase = .idle ∧ (withWire [0xa5]).accDue = false ∧
        decode .fixture (withWire [0xa5]).inbox ≠ .incomplete :=
  ⟨⟨_, rfl, by decide⟩, ⟨_, rfl, rfl, rfl, by decide +kernel⟩⟩

/-- ReplyClosesCommand: a step that replies. -/
theorem witness_ReplyClosesCommand :
    ∃ t, step (begun .reset) = .next t ∧ t.trace = base.trace ++ [.rep [0x5a]] := ⟨_, rfl, by decide +kernel⟩

/-- ParamBitfieldCases, its six cases. -/
theorem witness_ParamBitfieldCases :
    (∀ l : KeyLength, (⟨zeroKey, l, 0, 7⟩ : KeyStore).slot = 0) ∧
      (∀ l : KeyLength, (⟨zeroKey, l, 3, 0⟩ : KeyStore).slot ≠ 0 ∧ (⟨zeroKey, l, 3, 0⟩ : KeyStore).dest = 0) ∧
      ∀ l : KeyLength, (⟨zeroKey, l, 3, 7⟩ : KeyStore).slot ≠ 0 ∧ (⟨zeroKey, l, 3, 7⟩ : KeyStore).dest ≠ 0 := by
  refine ⟨?_, ?_, ?_⟩ <;> intro l <;> cases l <;> decide

/-- ParamFieldsReadBack and DescriptorNeverReserved, also with the key-size field at its highest place. -/
theorem witness_ParamFieldsReadBack :
    Params.fixture.paramFieldsOk ∧ { Params.fixture with ksizeShift := 30 }.paramFieldsOk := by decide +kernel

/-- DescriptorOfKeyStore at the largest ids, and with each id zero. -/
theorem witness_DescriptorOfKeyStore :
    (KeyStore.descriptor .fixture ⟨zeroKey, .l128, 0xffff, 0xffff⟩).dst.toNat = 0xffff ∧
      (KeyStore.descriptor .fixture ⟨zeroKey, .l128, 0xffff, 0⟩).dst = 0x20000000 ∧
      (KeyStore.descriptor .fixture ⟨zeroKey, .l128, 0, 0xffff⟩).dst = 0x20000000 := by decide +kernel

/-- EncryptHwStoresBlock: the bytes next to the buffer are outside it. -/
theorem witness_EncryptHwStoresBlock :
    (∀ i < 16, 0x1fffffff ≠ (base.cfg.bufAddr + BitVec.ofNat 32 i).toNat) ∧
      ∀ i < 16, 0x20000010 ≠ (base.cfg.bufAddr + BitVec.ofNat 32 i).toNat := by decide +kernel

/-- EncryptHwTrace and EncryptHwResultMux, in host-key mode at both lengths, with a slot, and redirected; the operation
completes at once or after two polls. -/
theorem witness_EncryptHwTrace :
    (∀ l : KeyLength, ∀ s ∈ [withKeys key32 l 0 7, withKeys key32 l 2 0, withKeys key32 l 0xffff 0xffff],
      s.cfg.Valid ∧ s.outcome = .running ∧ s.accBusy = false ∧ AccelCompletesAfter s 1) ∧
    (let s := { base with draws := ⟨[some 0], [], [], 0⟩ }
     s.cfg.Valid ∧ s.outcome = .running ∧ s.accBusy = false ∧ AccelCompletesAfter s 0) := by
  refine ⟨?_, by decide +kernel⟩
  intro l
  cases l <;> decide +kernel

/-- EncryptHwResultMux: slot 2 has a defined AES-128 key, slot 0xffff none. -/
theorem witness_EncryptHwResultMux :
    cellsLookup base.slots.keys128 (2 : SlotId).toNat = some fixtureSlotKey ∧
      cellsLookup base.slots.keys128 (0xffff : SlotId).toNat = none := by decide +kernel

/-- EncryptHwResultMux: a slot with a defined AES-256 key. -/
theorem witness_EncryptHwResultMux_256 :
    let s := { withKeys zeroKey .l256 9 0 with slots := ⟨[], [(9, key32)], []⟩ }
    s.cfg.Valid ∧ s.accBusy = false ∧ AccelCompletesAfter s 1 ∧ s.keys.slot ≠ 0 ∧ s.keys.length = .l256 ∧
      cellsLookup s.slots.keys256 s.keys.slot.toNat = some key32 := by decide +kernel

/-- KeyCopyOnlyInHostKeyMode, in both modes. -/
theorem witness_KeyCopyOnlyInHostKeyMode :
    ∀ s ∈ [{ withKeys key32 .l128 0 7 with phase := .execHw .hw1 }, { withKeys key32 .l256 3 0 with phase := .execHw .hw1 }],
      s.cfg.Valid ∧ s.outcome = .running ∧ s.accDue = false ∧ s.phase = .execHw .hw1 := by decide +kernel

/-- StartWriteLatchesDescriptor, its three cases: idle, busy, and a reserved descriptor (EX6). -/
theorem witness_StartWriteLatchesDescriptor :
    (∀ s ∈ [programmed .hw4 true, { programmed .hw4 true with accOp := (polling none).accOp, accWait := some 3 },
        { programmed .hw4 true with regs := ⟨0x20000000, 0x20000000, 32, 9, 0, 0⟩ }],
      s.cfg.Valid ∧ s.outcome = .running ∧ s.accDue = false ∧ s.phase = .execHw .hw4) ∧
    descriptorOk .fixture (programmed .hw4 true).regs.descriptor = true ∧
    descriptorOk .fixture ⟨0x20000000, 0x20000000, 32, 9, 0⟩ = false := by decide +kernel

/-- BusyPollReadsStatusOnce, busy and no longer busy. -/
theorem witness_BusyPollReadsStatusOnce :
    ∀ s ∈ [polling (some 1), polling none, { polling none with accOp := none }],
      s.cfg.Valid ∧ s.outcome = .running ∧ s.accDue = false ∧ s.phase = .poll := by decide +kernel

/-- StatusReadHasNoSideEffect. -/
theorem witness_StatusReadHasNoSideEffect : base.draws.statusBits.head? = some 5 := by decide

/-- CompletionInPlace. -/
theorem witness_CompletionInPlace :
    let s := polling (some 0)
    let op : AccOp := ⟨⟨0x20000000, 0x20000000, 16, 9, 0⟩, zeroKey⟩
    s.outcome = .running ∧ s.accOp = some op ∧ s.accWait = some 0 ∧ sizeOf? s.cfg op.desc.param = some .l128 ∧
      flagSet op.desc.param s.cfg.pRedirect = false := by decide +kernel

/-- CompletionRedirected. -/
theorem witness_CompletionRedirected :
    let s := pollingRedirected
    let op : AccOp := ⟨⟨0x20000000, 7, 16, 0x11, 2⟩, zeroKey⟩
    s.outcome = .running ∧ s.accOp = some op ∧ s.accWait = some 0 ∧ sizeOf? s.cfg op.desc.param = some .l128 ∧
      flagSet op.desc.param s.cfg.pRedirect = true := by decide +kernel

/-- Aes128IgnoresUpperKeyBytes: two keys that differ in their upper halves alone. -/
theorem witness_Aes128IgnoresUpperKeyBytes :
    (∀ n (h : n < 16), key32[n] = (key 0x000102030405060708090a0b0c0d0e0f00000000000000000000000000000000)[n]) ∧
      key32 ≠ key 0x000102030405060708090a0b0c0d0e0f00000000000000000000000000000000 := by decide +kernel

/-- StuckAcceleratorHangs. -/
theorem witness_StuckAcceleratorHangs :
    let s := polling none
    s.cfg.Valid ∧ s.outcome = .running ∧ s.phase = .poll ∧ s.accBusy = true ∧ s.accWait = none ∧ TrigWindow s := by
  decide +kernel

/-- EncryptSwCompletes, CalibNopCompletes and CalibDivCompletes: a running machine with an idle accelerator; for encrypt-sw at
both key lengths, with and without a software key. -/
theorem witness_EncryptSwCompletes :
    ∀ s ∈ [base, { base with swKey := none }, withKeys key32 .l256 0 0],
      s.outcome = .running ∧ s.accBusy = false := by decide +kernel

/-- HardwareAndSoftwareAgree: after a load-key-128. -/
theorem witness_HardwareAndSoftwareAgree :
    let s := { withKeys (key 0x000102030405060708090a0b0c0d0e0f00000000000000000000000000000000) .l128 0 0 with swKey := some key16 }
    s.cfg.Valid ∧ s.outcome = .running ∧ s.accBusy = false ∧ AccelCompletesAfter s 1 ∧ s.keys.slot = 0 ∧ s.keys.length = .l128 ∧
      s.swKey = some key16 ∧ ∀ i (h : i < 16), key16[i] = s.keys.material[i] := by decide +kernel

/-- OnlyFramedCommandsDriveTrigger: steps that raise the line, and one that lowers it. -/
theorem witness_OnlyFramedCommandsDriveTrigger :
    (∃ t, step (programmed .hw3 false) = .next t ∧ t.trig ≠ (programmed .hw3 false).trig) ∧
      (∃ t, step (begun (.calibDiv 1)) = .next t ∧ t.trig = true) ∧
      ∃ t, step { polling none with phase := .execHw .hw6, accOp := none } = .next t ∧ t.trig = false :=
  ⟨⟨_, rfl, by decide⟩, ⟨_, rfl, by decide⟩, ⟨_, rfl, by decide⟩⟩

/-- TriggerFramesAlternate: a state inside a frame. -/
theorem witness_TriggerFramesAlternate :
    TrigWindow (polling none) ∧ TraceFramed (polling none) ∧ ∃ t, step (polling none) = .next t :=
  ⟨by decide +kernel, by decide +kernel, ⟨_, rfl⟩⟩

/-- CalibNopCompletes and CalibDivCompletes: the loop's two ways on. -/
theorem witness_CalibNopCompletes :
    (∃ t, step { base with phase := .loop .div 0 } = .next t ∧ t.phase = .execCalib .div .c3) ∧
      ∃ t, step { base with phase := .loop .nop 0xffffffff } = .next t ∧ t.phase = .loop .nop 0xfffffffe :=
  ⟨⟨_, rfl, by decide +kernel⟩, ⟨_, rfl, by decide +kernel⟩⟩

/-- CanonicalMemoryKept, on a step that stores. -/
theorem witness_CanonicalMemoryKept :
    base.ram.wf ∧ ∃ t, step (begun (.encryptSw plain)) = .next t ∧ t.ram ≠ [] :=
  ⟨by decide, ⟨_, rfl, by decide +kernel⟩⟩

/-- OnlyBufferIsWritten and StepKeepsInv: states of the invariant in and out of a command. -/
theorem witness_StepKeepsInv :
    Inv base ∧ Inv (begun (.encryptSw plain)) ∧ Inv (programmed .hw3 false) ∧ Inv (programmed .hw4 true) ∧
      Inv (polling (some 2)) ∧ Inv (polling none) ∧ Inv pollingRedirected :=
  ⟨by decide +kernel, by decide +kernel, by decide +kernel, by decide +kernel, by decide +kernel, by decide +kernel, by decide +kernel⟩

/-- OnlyBufferIsWritten and StepKeepsInv: steps from states of the invariant. -/
theorem witness_OnlyBufferIsWritten :
    (∃ t, step (begun (.encryptSw plain)) = .next t) ∧ (∃ t, step (programmed .hw4 true) = .next t) ∧
      ∃ t, step (polling (some 0)) = .next t := ⟨⟨_, rfl⟩, ⟨_, rfl⟩, ⟨_, rfl⟩⟩

/-- BusIsLittleEndian. -/
theorem witness_BusIsLittleEndian :
    Params.fixture.targetLe = true ∧ busByte .fixture 0x11223344 0 = 0x44 ∧ busByte .fixture 0x11223344 3 = 0x11 := by
  decide +kernel

/-- ParametersAreFixed: a step that goes on. -/
theorem witness_ParametersAreFixed : ∃ t, step base = .next t := ⟨_, rfl⟩

/-- FieldAndScheduleParts and CipherFollowsRounds: their bounds, at the least and the largest place. -/
theorem witness_CipherFollowsRounds :
    gmul 0x57 (1#8 <<< 7) = Nat.repeat xtime 7 0x57 ∧ rcon 10 = xtime (rcon 9) ∧ (subBytes plain)[15] = sbox plain[15] ∧
      (addRoundKey (keyExpansion128 key16) plain 10)[15] = plain[15] ^^^ ((keyExpansion128 key16).getD 43 zeroWord)[3] := by
  decide +kernel

/-- CommandsComeFromTheWire: a step that takes a frame, with the accelerator idle and busy. -/
theorem witness_CommandsComeFromTheWire :
    (∃ t, step (withWire [0xa5, 0xa5]) = .next t ∧ t.inbox = [0xa5]) ∧
      ∃ t, step { polling (some 3) with phase := .idle, inbox := [0xa5] } = .next t ∧ t.phase = .execFirst .reset ∧
        t.accWait = some 2 :=
  ⟨⟨_, rfl, by decide +kernel⟩, ⟨_, rfl, by decide +kernel, by decide +kernel⟩⟩

/-- StepsFollowTheRulesOrder: the commands' first labels, the poll, and both ways out of the loop. -/
theorem witness_StepsFollowTheRulesOrder :
    (∀ i ∈ [Instr.encryptHw plain, .encryptSw plain, .calibNop 0, .calibDiv 0xffffffff, .reset, .selectKeyslot 1 1 0x20],
      OneOperation (begun i) ∧ (base.record (step (begun i))).phase ≠ (begun i).phase) ∧
    (∀ s ∈ [polling (some 0), polling (some 1), programmed .hw4 true, { base with phase := .loop .nop 0 },
        { base with phase := .loop .div 1 }], OneOperation s) ∧
    (∃ t, step (polling (some 0)) = .next t) ∧ ∃ t, step { base with phase := .loop .div 1 } = .next t :=
  ⟨by decide +kernel, by decide +kernel, ⟨_, rfl⟩, ⟨_, rfl⟩⟩

/-- `base` at the start write with this descriptor in the registers. -/
def startWith (dst len param keyslot : Word) : State :=
  { programmed .hw4 true with regs := ⟨0x20000000, dst, len, param, keyslot, 0⟩ }

/-- ReservedDescriptorsFault: one descriptor of each reserved kind, at the edge of its range, and two that are not reserved. -/
theorem witness_ReservedDescriptorsFault :
    (∀ s ∈ [startWith 0x20000000 15 9 0, startWith 0x20000000 16 0xb 0, startWith 0x20000000 16 8 0, startWith 7 16 0x19 0,
        startWith 0x20000000 16 0x29 0, startWith 0x20000000 16 1 0x10000, startWith 0x10000 16 0x11 2,
        startWith 0xffff 16 0x11 0xffff, startWith 0x20000000 16 0xd 0],
      s.cfg.Valid ∧ s.outcome = .running ∧ s.accBusy = false ∧ s.phase = .execHw .hw4) ∧
    [startWith 0x20000000 15 9 0, startWith 0x20000000 16 0xb 0, startWith 0x20000000 16 8 0, startWith 7 16 0x19 0,
      startWith 0x20000000 16 0x29 0, startWith 0x20000000 16 1 0x10000, startWith 0x10000 16 0x11 2].all
        (fun s => !descriptorOk .fixture s.regs.descriptor) = true ∧
    descriptorOk .fixture (startWith 0xffff 16 0x11 0xffff).regs.descriptor = true ∧
    descriptorOk .fixture (startWith 0x20000000 16 0xd 0).regs.descriptor = true ∧
    (2 : Word) ≠ Params.fixture.startValue := by decide +kernel

end Sys2Proof.Tests
end

/-! Memory, the parameters and power-on. -/

namespace Sys2Proof.Machine

/-! What one step does to data RAM and to the parameters. -/

/-- Data RAM `m'` is `m`, or `m` after one store of a 16-byte block (R16): all that a step does to data RAM. -/
def Memory.StoredAtMostOnce (m m' : Memory) : Prop := m' = m ∨ ∃ a b, m' = memWrite m a b

theorem Memory.StoredAtMostOnce.refl (m : Memory) : m.StoredAtMostOnce m := .inl rfl

theorem Memory.StoredAtMostOnce.write (m : Memory) (a : Word) (b : Block) : m.StoredAtMostOnce (memWrite m a b) :=
  .inr ⟨a, b, rfl⟩

theorem Memory.StoredAtMostOnce.wf {m m' : Memory} (h : m.StoredAtMostOnce m') (hm : m.wf) : m'.wf := by
  obtain rfl | ⟨a, b, rfl⟩ := h
  · exact hm
  · exact memWrite_wf hm a b

/-- The completion stores the ciphertext, or redirects it to a slot (R115). -/
theorem State.accFinish_ram (s : State) (op : AccOp) (size : KeyLength) :
    s.ram.StoredAtMostOnce (s.accFinish op size).ram := by
  obtain ⟨e, d, -, ⟨-, h⟩ | ⟨-, h⟩⟩ := s.accFinish_cases op size <;> rw [h]
  · exact .refl _
  · exact .write _ _ e

/-- The software encryption stores its result at L128 and nothing at L256 (R128). -/
theorem State.swEncrypt_ram (s : State) (p : Block) : s.ram.StoredAtMostOnce (s.swEncrypt p).ram := by
  obtain ⟨e, m, d, h, -, h256, h128⟩ := s.swEncrypt_cases p
  rw [h]
  cases hl : s.keys.length with
  | l256 => exact .inl (h256 hl).2
  | l128 => exact (h128 hl).1 ▸ .write _ _ e

/-- The first step of a command stores its operand where the command encrypts, and nothing otherwise (R99, R128). -/
theorem exec_ram {i : Instr} {s t : State} (h : exec i s = .next t) : s.ram.StoredAtMostOnce t.ram := by
  obtain ⟨k, w, rfl, -⟩ | ⟨slot, dest, b, len, -, -, rfl⟩ | ⟨p, -, rfl⟩ | ⟨p, -, rfl⟩ | ⟨c, n, -, rfl⟩ := exec_cases h
  · exact .refl _
  · exact .refl _
  · exact .write _ _ p
  · exact .write _ _ p
  · exact .refl _

theorem Moved.ram_storedAtMostOnce {s t : State} (h : Moved s t) : s.ram.StoredAtMostOnce t.ram := by
  cases h with
  | complete op size => exact s.accFinish_ram op size
  | command i t hp he => simpa using exec_ram he
  | swCompute p => simpa using s.tick.swEncrypt_ram p
  | _ => exact .inl (by simp)

@[simp] theorem State.accFinish_cfg (s : State) (op : AccOp) (size : KeyLength) : (s.accFinish op size).cfg = s.cfg := by
  obtain ⟨e, d, -, ⟨-, h⟩ | ⟨-, h⟩⟩ := s.accFinish_cases op size <;> rw [h]

@[simp] theorem State.swEncrypt_cfg (s : State) (p : Block) : (s.swEncrypt p).cfg = s.cfg := by
  obtain ⟨e, m, d, h, -⟩ := s.swEncrypt_cases p
  rw [h]

theorem exec_cfg {i : Instr} {s t : State} (h : exec i s = .next t) : t.cfg = s.cfg := by
  obtain ⟨k, w, rfl, -⟩ | ⟨slot, dest, b, len, -, -, rfl⟩ | ⟨p, -, rfl⟩ | ⟨p, -, rfl⟩ | ⟨c, n, -, rfl⟩ := exec_cases h <;>
    rfl

theorem Moved.cfg_eq {s t : State} (h : Moved s t) : t.cfg = s.cfg := by
  cases h with
  | command i t hp he => simpa using exec_cfg he
  | _ => simp

/-- Settles O40: a step stores at most one block, and a store keeps the form. -/
theorem canonicalMemoryKept : Obligations.CanonicalMemoryKept := by
  intro s t hwf h
  obtain ⟨-, hmoved⟩ := step_cases h
  exact hmoved.ram_storedAtMostOnce.wf hwf

/-! The parameters of R12. -/

theorem cellsWf_nil {β : Type} (bound : Nat) : cellsWf bound ([] : List (Nat × β)) := ⟨.nil, by simp⟩

theorem fixture_valid : Params.fixture.Valid := by decide

theorem params_valid : Config.params.Valid := by
  unfold Config.params
  dsimp only
  split
  case isTrue h => exact h
  case isFalse => exact fixture_valid

/-- Settles O45: the choice of `Config.params` is between parameters that meet R12, and no move writes `cfg`. -/
theorem parametersAreFixed : Obligations.ParametersAreFixed := by
  refine ⟨params_valid, fun s t h => ?_⟩
  obtain ⟨-, hmoved⟩ := step_cases h
  exact hmoved.cfg_eq

/-- Settles O43: the slot maps take their form from R12, the other clauses hold of what power-on leaves (R170). -/
theorem invAtReset : Obligations.InvAtReset := by
  obtain ⟨-, -, -, -, -, -, hkeys128, hkeys256⟩ := params_valid
  have hslots : State.reset.slots.wf := ⟨hkeys128, hkeys256, cellsWf_nil _⟩
  exact ⟨params_valid, rfl, cellsWf_nil _, hslots, rfl, rfl, nofun, nofun, nofun, nofun, rfl⟩

/-! Data RAM. -/

/-- Settles O39, by the laws of reads after writes over consecutive bytes. -/
theorem blockReadAfterWrite : Obligations.BlockReadAfterWrite := by
  intro m a b
  refine ⟨memRead_memWrite m a b, fun i hi => ?_, fun x hx => read_memWrite_other m a b x hx⟩
  have hread := congrArg (fun v : Block => v[i]) (memRead_memWrite m a b)
  simpa [memRead] using hread

end Sys2Proof.Machine

/-! The parameter bitfield (R36, R78) field by field under the constraints of R12, and the descriptor that carries it. -/

namespace Sys2Proof.Machine

theorem oneBit_ne_zero {m : Word} (h : oneBit m = true) : m ≠ 0#32 := by
  obtain ⟨i, hi, hm⟩ := List.any_eq_true.1 h
  rw [beq_iff_eq] at hm
  have hi' : i < 32 := List.mem_range.1 hi
  subst hm
  intro h0
  simpa [BitVec.getLsbD_twoPow, hi'] using congrArg (fun v : Word => v.getLsbD i) h0

/-- A key-size code at its place in the parameter bitfield (R36). -/
def sizeBits (c : Params) (code : BitVec 2) : Word := code.setWidth 32 <<< c.ksizeShift.val

theorem sizeBits_and_ksizeMask (c : Params) (code : BitVec 2) : sizeBits c code &&& c.ksizeMask = sizeBits c code := by
  have h3 : code.setWidth 32 &&& 3#32 = code.setWidth 32 := by
    revert code
    decide
  rw [sizeBits, Params.ksizeMask, ← BitVec.shiftLeft_and_distrib, h3]

theorem sizeField_sizeBits (c : Params) (code : BitVec 2) : sizeField c (sizeBits c code) = code := by
  have hs := c.ksizeShift.isLt
  ext i hi
  simp [sizeField, sizeBits, hi, show c.ksizeShift.val + i < 32 by omega]

theorem sizeField_and_ksizeMask (c : Params) (x : Word) : sizeField c (x &&& c.ksizeMask) = sizeField c x := by
  have hs := c.ksizeShift.isLt
  ext i hi
  have h3 : (3#32).getLsbD i = true := by interval_cases i <;> rfl
  simp [sizeField, Params.ksizeMask, h3, show c.ksizeShift.val + i < 32 by omega]

/-- The two bits of the size field as a word (R114). -/
theorem shiftRight_and_three (c : Params) (x : Word) : (x >>> c.ksizeShift.val) &&& 3#32 = (sizeField c x).setWidth 32 := by
  rw [sizeField]
  generalize x >>> c.ksizeShift.val = y
  have hand : y.toNat &&& 3 = y.toNat % 4 := Nat.and_two_pow_sub_one_eq_mod y.toNat 2
  apply BitVec.eq_of_toNat_eq
  simp only [BitVec.toNat_and, BitVec.toNat_setWidth, BitVec.toNat_ofNat, Nat.reducePow, Nat.reduceMod, hand]
  omega

theorem paramWord_eq (c : Params) (k : KeyStore) : k.paramWord c =
    c.pBase ||| sizeBits c (ksizeCode c k.length) ||| (if k.hostKey then c.pHostkey else 0#32) |||
      (if k.redirect then c.pRedirect else 0#32) := rfl

theorem sizeBits_and_eq_zero {c : Params} {m : Word} (h : c.ksizeMask &&& m = 0#32) (code : BitVec 2) :
    sizeBits c code &&& m = 0#32 := by
  rw [← sizeBits_and_ksizeMask, BitVec.and_assoc, h, BitVec.and_zero]

theorem paramWord_and (c : Params) (k : KeyStore) (m : Word) : k.paramWord c &&& m =
    (c.pBase &&& m) ||| (sizeBits c (ksizeCode c k.length) &&& m) |||
      (if k.hostKey then c.pHostkey &&& m else 0#32) ||| (if k.redirect then c.pRedirect &&& m else 0#32) := by
  rw [paramWord_eq]
  cases k.hostKey <;> cases k.redirect <;> simp [BitVec.and_or_distrib_right]

/-- R12 keeps the fields apart, so a mask of one field takes that field alone out of the bitfield (R36, R78). -/
theorem paramWord_and_masks {c : Params} (h : c.paramFieldsOk) (k : KeyStore) :
    k.paramWord c &&& c.pBase = c.pBase ∧
    k.paramWord c &&& c.pHostkey = (if k.hostKey then c.pHostkey else 0#32) ∧
    k.paramWord c &&& c.pRedirect = (if k.redirect then c.pRedirect else 0#32) ∧
    k.paramWord c &&& c.ksizeMask = sizeBits c (ksizeCode c k.length) := by
  obtain ⟨-, -, -, hbh, hbr, hhr, hsize, -⟩ := h
  have hhb := (BitVec.and_comm _ _).trans hbh
  have hrb := (BitVec.and_comm _ _).trans hbr
  have hrh := (BitVec.and_comm _ _).trans hhr
  simp only [BitVec.and_or_distrib_left, BitVec.or_eq_zero_iff] at hsize
  obtain ⟨⟨hsb, hsh⟩, hsr⟩ := hsize
  have hbs := (BitVec.and_comm _ _).trans hsb
  have hhs := (BitVec.and_comm _ _).trans hsh
  have hrs := (BitVec.and_comm _ _).trans hsr
  refine ⟨?_, ?_, ?_, ?_⟩ <;> rw [paramWord_and]
  · simp [hhb, hrb, sizeBits_and_eq_zero hsb]
  · simp [hbh, hrh, sizeBits_and_eq_zero hsh]
  · simp [hbr, hhr, sizeBits_and_eq_zero hsr]
  · simp [hbs, hhs, hrs, sizeBits_and_ksizeMask]

theorem flagSet_paramWord_pBase {c : Params} (h : c.paramFieldsOk) (k : KeyStore) :
    flagSet (k.paramWord c) c.pBase = true := by
  obtain ⟨hbase, -⟩ := paramWord_and_masks h k
  obtain ⟨hone, -⟩ := h
  simpa [flagSet, hbase] using oneBit_ne_zero hone

theorem flagSet_paramWord_pHostkey {c : Params} (h : c.paramFieldsOk) (k : KeyStore) :
    flagSet (k.paramWord c) c.pHostkey = k.hostKey := by
  obtain ⟨-, hhost, -⟩ := paramWord_and_masks h k
  obtain ⟨-, hone, -⟩ := h
  have hne := oneBit_ne_zero hone
  cases hk : k.hostKey <;> simp [flagSet, hhost, hk, hne]

theorem flagSet_paramWord_pRedirect {c : Params} (h : c.paramFieldsOk) (k : KeyStore) :
    flagSet (k.paramWord c) c.pRedirect = k.redirect := by
  obtain ⟨-, -, hredirect, -⟩ := paramWord_and_masks h k
  obtain ⟨-, -, hone, -⟩ := h
  have hne := oneBit_ne_zero hone
  cases hk : k.redirect <;> simp [flagSet, hredirect, hk, hne]

theorem sizeField_paramWord {c : Params} (h : c.paramFieldsOk) (k : KeyStore) :
    sizeField c (k.paramWord c) = ksizeCode c k.length := by
  obtain ⟨-, -, -, hsize⟩ := paramWord_and_masks h k
  rw [← sizeField_and_ksizeMask, hsize, sizeField_sizeBits]

theorem sizeOf?_paramWord {c : Params} (h : c.paramFieldsOk) (k : KeyStore) :
    sizeOf? c (k.paramWord c) = some k.length := by
  have ⟨_, _, _, _, _, _, _, hcodes⟩ := h
  rw [sizeOf?, sizeField_paramWord h]
  cases k.length with
  | l128 => simp [ksizeCode]
  | l256 => simp [ksizeCode, hcodes.symm]

theorem and_not_eq_zero_of_and_eq {x m : Word} (h : x &&& m = x) : x &&& ~~~m = 0#32 := by
  rw [← h, BitVec.and_assoc]
  simp

theorem and_or_eq_left {x m : Word} (h : x &&& m = x) (y : Word) : x &&& (m ||| y) = x := by
  rw [BitVec.and_or_distrib_left, h]
  ext i hi
  cases hb : x[i] <;> simp [hb]

theorem and_or_eq_right {x m : Word} (h : x &&& m = x) (y : Word) : x &&& (y ||| m) = x := by
  rw [BitVec.or_comm, and_or_eq_left h]

/-- No bit outside the named fields is set (R36): each part of the bitfield lies inside its own field. -/
theorem paramWord_and_not_fields (c : Params) (k : KeyStore) :
    k.paramWord c &&& ~~~(c.pBase ||| c.pHostkey ||| c.pRedirect ||| c.ksizeMask) = 0#32 := by
  apply and_not_eq_zero_of_and_eq
  have hself (x : Word) : x &&& x = x := BitVec.and_self
  rw [paramWord_and, and_or_eq_left (and_or_eq_left (and_or_eq_left (hself c.pBase) _) _),
    and_or_eq_left (and_or_eq_left (and_or_eq_right (hself c.pHostkey) _) _),
    and_or_eq_left (and_or_eq_right (hself c.pRedirect) _),
    and_or_eq_right (sizeBits_and_ksizeMask c _), paramWord_eq]

theorem KeyStore.hostKey_iff (k : KeyStore) : k.hostKey = true ↔ k.slot = 0#16 := by simp [KeyStore.hostKey]

theorem KeyStore.redirect_iff (k : KeyStore) : k.redirect = true ↔ k.slot ≠ 0#16 ∧ k.dest ≠ 0#16 := by
  simp [KeyStore.redirect]

/-- Settles O19: each field is read by its mask, and R12 keeps the masks apart. -/
theorem paramFieldsReadBack : Obligations.ParamFieldsReadBack := by
  intro c k h
  refine ⟨flagSet_paramWord_pBase h k, ?_, ?_, sizeOf?_paramWord h k, paramWord_and_not_fields c k⟩
  · rw [flagSet_paramWord_pHostkey h, k.hostKey_iff]
  · rw [flagSet_paramWord_pRedirect h, k.redirect_iff]

/-- Host-key mode and a redirected output shut each other out (R78). -/
theorem KeyStore.not_hostKey_and_redirect (k : KeyStore) : (k.hostKey && k.redirect) = false := by
  cases hk : k.slot == 0#16 <;> simp_all [KeyStore.hostKey, KeyStore.redirect]

theorem slotWord_lt (v : SlotId) : (v.setWidth 32).toNat < 2 ^ 16 := by
  have := v.isLt
  simp only [BitVec.toNat_setWidth]
  omega

theorem slotWord_ushiftRight (v : SlotId) : v.setWidth 32 >>> 16 = 0#32 := by
  apply BitVec.eq_of_toNat_eq
  rw [BitVec.toNat_ushiftRight, Nat.shiftRight_eq_div_pow, Nat.div_eq_of_lt (slotWord_lt v)]
  rfl

theorem KeyStore.dstWord_of_redirect (c : Params) {k : KeyStore} (h : k.redirect = true) :
    k.dstWord c = k.dest.setWidth 32 := by
  rw [KeyStore.dstWord, if_pos h]

theorem flagSet_iff (x m : Word) : flagSet x m = true ↔ x &&& m ≠ 0#32 := by simp [flagSet]

/-- The model's check passes what the CCU writes (R82, R119). -/
theorem descriptorOk_descriptor {c : Params} (h : c.paramFieldsOk) (k : KeyStore) :
    descriptorOk c (k.descriptor c) = true := by
  have hdst : (!k.redirect || k.dstWord c >>> 16 == 0#32) = true := by
    cases hr : k.redirect with
    | false => rfl
    | true => simp [k.dstWord_of_redirect c hr, slotWord_ushiftRight]
  simp only [descriptorOk, KeyStore.descriptor, sizeOf?_paramWord h, flagSet_paramWord_pBase h,
    flagSet_paramWord_pHostkey h, flagSet_paramWord_pRedirect h, k.not_hostKey_and_redirect,
    paramWord_and_not_fields, slotWord_ushiftRight, hdst]
  rfl

theorem KeyStore.descriptor_param (c : Params) (k : KeyStore) : (k.descriptor c).param = k.paramWord c := rfl

theorem KeyStore.descriptor_dst (c : Params) (k : KeyStore) : (k.descriptor c).dst = k.dstWord c := rfl

/-- Settles O21: the clauses are the fields of O19 read back, with 16-bit slot ids. -/
theorem descriptorNeverReserved : Obligations.DescriptorNeverReserved := by
  intro c k h
  obtain ⟨-, hhost, hredirect, -⟩ := paramWord_and_masks h k
  refine ⟨descriptorOk_descriptor h k, rfl, ?_, ?_, ?_, paramWord_and_not_fields c k, slotWord_lt k.slot, fun hr => ?_⟩
  · rw [shiftRight_and_three, k.descriptor_param, sizeField_paramWord h]
    cases k.length with
    | l128 => exact .inl rfl
    | l256 => exact .inr rfl
  · exact (flagSet_iff _ _).1 (flagSet_paramWord_pBase h k)
  · rw [k.descriptor_param, hhost, hredirect]
    cases hk : k.hostKey with
    | false => exact .inl rfl
    | true =>
      have hnr : k.redirect = false := by simpa [hk] using k.not_hostKey_and_redirect
      exact .inr (by simp [hnr])
  · rw [k.descriptor_param, ← flagSet_iff, flagSet_paramWord_pRedirect h] at hr
    rw [k.descriptor_dst, k.dstWord_of_redirect c hr]
    exact slotWord_lt k.dest

end Sys2Proof.Machine

/-! The moves of the machine: what a step may write to data RAM and the key store, the order of the steps, and the stops. -/

namespace Sys2Proof.Machine

/-! What a step leaves of data RAM: R30, R62, R99, R118. -/

/-- Every byte of data RAM outside the 16 bytes from `a` reads the same in `m'` as in `m`. -/
def Memory.SameOutside (a : Word) (m m' : Memory) : Prop :=
  ∀ x, (∀ i < 16, x ≠ (a + BitVec.ofNat 32 i).toNat) → m'.read x = m.read x

theorem Memory.SameOutside.refl (a : Word) (m : Memory) : m.SameOutside a m := fun _ _ => rfl

theorem Memory.SameOutside.write (a : Word) (m : Memory) (b : Block) : m.SameOutside a (memWrite m a b) :=
  fun x hx => read_memWrite_other m a b x hx

/-- A completion whose output is the buffer, or is redirected, stores nowhere else (R115). -/
theorem State.accFinish_sameOutside (s : State) (op : AccOp) (size : KeyLength)
    (h : flagSet op.desc.param s.cfg.pRedirect = false → op.desc.dst = s.cfg.bufAddr) :
    s.ram.SameOutside s.cfg.bufAddr (s.accFinish op size).ram := by
  obtain ⟨e, d, -, ⟨-, hs⟩ | ⟨hr, hs⟩⟩ := s.accFinish_cases op size <;> rw [hs]
  · exact .refl _ _
  · rw [h hr]
    exact .write _ _ e

theorem State.swEncrypt_sameOutside (s : State) (p : Block) : s.ram.SameOutside s.cfg.bufAddr (s.swEncrypt p).ram := by
  obtain ⟨e, m, d, h, -, h256, h128⟩ := s.swEncrypt_cases p
  rw [h]
  cases hl : s.keys.length with
  | l256 => exact (h256 hl).2 ▸ .refl _ _
  | l128 => exact (h128 hl).1 ▸ .write _ _ e

theorem exec_sameOutside {i : Instr} {s t : State} (h : exec i s = .next t) : s.ram.SameOutside s.cfg.bufAddr t.ram := by
  obtain ⟨k, w, rfl, -⟩ | ⟨slot, dest, b, len, -, -, rfl⟩ | ⟨p, -, rfl⟩ | ⟨p, -, rfl⟩ | ⟨c, n, -, rfl⟩ := exec_cases h
  · exact .refl _ _
  · exact .refl _ _
  · exact .write _ _ p
  · exact .write _ _ p
  · exact .refl _ _

/-- An unredirected operation that the key store describes writes to the buffer (R80). -/
theorem LatchedCurrent.dst_eq {s : State} {op : AccOp} (hl : LatchedCurrent s) (hc : s.cfg.paramFieldsOk)
    (ho : s.accOp = some op) (hr : flagSet op.desc.param s.cfg.pRedirect = false) : op.desc.dst = s.cfg.bufAddr := by
  obtain ⟨hdesc, -⟩ := hl op ho
  rw [hdesc, KeyStore.descriptor_param, flagSet_paramWord_pRedirect hc] at hr
  rw [hdesc, KeyStore.descriptor_dst, KeyStore.dstWord, hr, if_neg Bool.false_ne_true]

theorem Moved.ram_sameOutside {s t : State} (h : Moved s t) (hl : LatchedCurrent s) (hc : s.cfg.paramFieldsOk) :
    s.ram.SameOutside s.cfg.bufAddr t.ram := by
  cases h with
  | complete op size hd ho hs => exact s.accFinish_sameOutside op size (hl.dst_eq hc ho)
  | command i t hp he => simpa using exec_sameOutside he
  | swCompute p hp => simpa using s.tick.swEncrypt_sameOutside p
  | _ => simpa using .refl _ _

/-- Settles O41: the CCU stores to `BUF_ADDR` alone, and so does an operation that the key store describes. -/
theorem onlyBufferIsWritten : Obligations.OnlyBufferIsWritten := by
  intro s t hinv h
  obtain ⟨⟨-, -, -, hfields, -⟩, -, -, -, -, -, -, -, -, hlatched, -⟩ := hinv
  obtain ⟨-, hmoved⟩ := step_cases h
  exact hmoved.ram_sameOutside hlatched hfields

/-! What the completion and the software encryption write: R115, R128. -/

/-- A completion writes data RAM or the slots, and ends the operation (R115). -/
theorem State.accFinish_eq (s : State) (op : AccOp) (size : KeyLength) :
    s.accFinish op size =
      { s with
        ram := (s.accFinish op size).ram, slots := (s.accFinish op size).slots, accOp := none,
        draws := (s.accFinish op size).draws, trace := s.trace ++ [.done] } := by
  obtain ⟨e, d, -, ⟨-, h⟩ | ⟨-, h⟩⟩ := s.accFinish_cases op size <;> rw [h]

@[simp] theorem State.accFinish_keys (s : State) (op : AccOp) (size : KeyLength) : (s.accFinish op size).keys = s.keys := by
  rw [s.accFinish_eq]

@[simp] theorem State.accFinish_swKey (s : State) (op : AccOp) (size : KeyLength) :
    (s.accFinish op size).swKey = s.swKey := by
  rw [s.accFinish_eq]

@[simp] theorem State.accFinish_phase (s : State) (op : AccOp) (size : KeyLength) :
    (s.accFinish op size).phase = s.phase := by
  rw [s.accFinish_eq]

@[simp] theorem State.accFinish_inbox (s : State) (op : AccOp) (size : KeyLength) :
    (s.accFinish op size).inbox = s.inbox := by
  rw [s.accFinish_eq]

/-- The software encryption writes the buffer at most, and may take a free value (R128). -/
theorem State.swEncrypt_eq (s : State) (p : Block) :
    s.swEncrypt p = { s with ram := (s.swEncrypt p).ram, draws := (s.swEncrypt p).draws } := by
  obtain ⟨e, m, d, h, -⟩ := s.swEncrypt_cases p
  rw [h]

@[simp] theorem State.swEncrypt_keys (s : State) (p : Block) : (s.swEncrypt p).keys = s.keys := by
  rw [s.swEncrypt_eq]

@[simp] theorem State.swEncrypt_swKey (s : State) (p : Block) : (s.swEncrypt p).swKey = s.swKey := by
  rw [s.swEncrypt_eq]

@[simp] theorem State.swEncrypt_inbox (s : State) (p : Block) : (s.swEncrypt p).inbox = s.inbox := by
  rw [s.swEncrypt_eq]

/-! What a step leaves of the key store and the software key: R93. -/

/-- Only the four commands of 41_keystore.md write the key store or the software key (R93, R98, R128, R145). -/
theorem exec_keys {i : Instr} {s t : State} (h : exec i s = .next t) (hi : i.command ∉ keyCommands) :
    t.keys = s.keys ∧ t.swKey = s.swKey := by
  obtain ⟨k, w, -, hc⟩ | ⟨slot, dest, b, len, rfl, -, -⟩ | ⟨p, -, rfl⟩ | ⟨p, -, rfl⟩ | ⟨c, n, -, rfl⟩ := exec_cases h
  · have hsub : [Command.loadKey128, .loadKey256, .reset] ⊆ keyCommands := by decide
    exact absurd (hsub hc) hi
  · exact absurd (show Command.selectKeyslot ∈ keyCommands by decide) hi
  · exact ⟨rfl, rfl⟩
  · exact ⟨rfl, rfl⟩
  · exact ⟨rfl, rfl⟩

/-- A move changes the key state only as the first step of a key store command. -/
theorem Moved.keys_or_command {s t : State} (h : Moved s t) :
    (t.keys = s.keys ∧ t.swKey = s.swKey) ∨ ∃ i, s.phase = .execFirst i ∧ i.command ∈ keyCommands := by
  cases h with
  | command i t hp he =>
    by_cases hi : i.command ∈ keyCommands
    · exact .inr ⟨i, hp, hi⟩
    · exact .inl (by simpa using exec_keys he hi)
  | _ => exact .inl (by simp)

/-- Settles O6: of all moves only the first step of a key store command writes the key state. -/
theorem keyStateChangesOnlyByKeyCommands : Obligations.KeyStateChangesOnlyByKeyCommands := by
  intro s t h hchanged
  obtain ⟨-, hmoved⟩ := step_cases h
  refine hmoved.keys_or_command.resolve_left fun ⟨hk, hw⟩ => ?_
  exact hchanged.elim (· hk) (· hw)

/-! The completion of a redirected operation: R42, R115. -/

/-- The step at which an operation is due and its size code has a meaning is its completion (R115). -/
theorem step_complete {s : State} {op : AccOp} {size : KeyLength} (h : s.outcome = .running) (ho : s.accOp = some op)
    (hw : s.accWait = some 0) (hs : sizeOf? s.cfg op.desc.param = some size) : step s = .next (s.accFinish op size) := by
  have hd : s.accDue = true := by simp [State.accDue, State.accBusy, ho, hw]
  simp [step_acc h hd, State.accComplete, ho, hs]

/-- The destination slot of a redirected output (R115). -/
theorem Slots.redirect_self (sl : Slots) (d : Nat) (e : Block) :
    cellsLookup (sl.redirect d e).out d = some e ∧ cellsLookup (sl.redirect d e).keys128 d = none ∧
      cellsLookup (sl.redirect d e).keys256 d = none :=
  ⟨cellsLookup_insert_self _ _ _, by simp [Slots.redirect, cellsLookup_erase],
    by simp [Slots.redirect, cellsLookup_erase]⟩

theorem Slots.redirect_other (sl : Slots) (e : Block) {d d' : Nat} (h : d' ≠ d) :
    cellsLookup (sl.redirect d e).out d' = cellsLookup sl.out d' ∧
      cellsLookup (sl.redirect d e).keys128 d' = cellsLookup sl.keys128 d' ∧
      cellsLookup (sl.redirect d e).keys256 d' = cellsLookup sl.keys256 d' :=
  ⟨cellsLookup_insert_other _ _ h, by simp [Slots.redirect, cellsLookup_erase, h],
    by simp [Slots.redirect, cellsLookup_erase, h]⟩

/-- Settles O30: the completion redirects the ciphertext to slot `dst[15:0]`. -/
theorem completionRedirected : Obligations.CompletionRedirected := by
  intro s op size hrun hop hwait hsize hflag
  obtain ⟨e, d, he, ⟨-, hfin⟩ | ⟨hnot, -⟩⟩ := s.accFinish_cases op size
  · obtain ⟨hout, h128, h256⟩ := s.slots.redirect_self op.desc.outSlot e
    refine ⟨_, e, step_complete hrun hop hwait hsize, he, ?_⟩
    rw [hfin]
    exact ⟨hout, h128, h256, fun d' hd' => s.slots.redirect_other e hd', rfl⟩
  · simp [hnot] at hflag

/-! Where commands come from: R83, R84, R159. -/

theorem isSome_keyLengthOfByte (b : Byte) : (keyLengthOfByte b).isSome = lenByteDefined b := by
  unfold keyLengthOfByte lenByteDefined
  split
  · simp_all
  · split <;> simp_all

/-- The checks of R159 pass the well-formed instructions in scope. -/
theorem accepted_iff (i : Instr) : accepted i = true ↔ WellFormed i = true ∧ debugMnemonic i.command = none := by
  cases i with
  | selectKeyslot slot dest b => simp [accepted, WellFormed, Instr.command, debugMnemonic, isSome_keyLengthOfByte]
  | _ => simp [accepted, WellFormed, Instr.command, debugMnemonic]

/-- `tick` writes the model's count of CCU steps alone (log 6). -/
theorem State.tick_eq (s : State) : s.tick = { s with accWait := s.tick.accWait } := by
  apply State.ext <;> simp

/-- The first step of a command leaves the wire alone and moves on from `Exec(c, 1)` (R83, R85). -/
theorem exec_leaves_first {i : Instr} {s t : State} (h : exec i s = .next t) :
    t.inbox = s.inbox ∧ ∀ j, t.phase ≠ .execFirst j := by
  obtain ⟨k, w, rfl, -⟩ | ⟨slot, dest, b, len, -, -, rfl⟩ | ⟨p, -, rfl⟩ | ⟨p, -, rfl⟩ | ⟨c, n, -, rfl⟩ := exec_cases h <;>
    exact ⟨rfl, nofun⟩

/-- The moves that take no frame leave the wire alone and enter no command. -/
theorem Moved.take_or_same {s t : State} (h : Moved s t) :
    (s.phase = .idle ∧ ∃ i rest, decode s.cfg s.inbox = .frame i rest ∧ accepted i = true ∧
      t = (s.tick.setInbox rest).setPhase (.execFirst i)) ∨
    (t.inbox = s.inbox ∧ ∀ i, t.phase = .execFirst i → s.phase = .execFirst i) := by
  cases h with
  | take i rest hp hi ha => exact .inl ⟨hp, i, rest, hi, ha, rfl⟩
  | command i t hp he =>
    obtain ⟨hinbox, hphase⟩ := exec_leaves_first he
    exact .inr ⟨by simpa using hinbox, fun j hj => absurd hj (hphase j)⟩
  | poll => exact .inr ⟨by simp, fun i hi => by split at hi <;> cases hi⟩
  | _ => exact .inr (by simp)

/-- Settles O52: of all moves only the taking of a frame does either. -/
theorem commandsComeFromTheWire : Obligations.CommandsComeFromTheWire := by
  intro s t h hchanged
  obtain ⟨-, hmoved⟩ := step_cases h
  obtain ⟨hp, i, rest, hi, ha, rfl⟩ | ⟨hinbox, hphase⟩ := hmoved.take_or_same
  · obtain ⟨hwf, hdebug⟩ := (accepted_iff i).1 ha
    refine ⟨hp, i, rest, hi, hwf, hdebug, ?_⟩
    conv_lhs => rw [s.tick_eq]
    rfl
  · rcases hchanged with hne | ⟨i, ht, hs⟩
    · exact absurd hinbox hne
    · exact absurd (hphase i ht) hs

/-! The order of the steps: R29, R98, R128, R147, R148. -/

/-- A key store command is done in its first step (R93). -/
theorem exec_phase_of_keyCommand {i : Instr} {s t : State} (h : exec i s = .next t) (hi : i.command ∈ keyCommands) :
    t.phase = .idle := by
  obtain ⟨k, w, rfl, -⟩ | ⟨slot, dest, b, len, -, -, rfl⟩ | ⟨p, rfl, -⟩ | ⟨p, rfl, -⟩ | ⟨c, n, rfl | rfl, -⟩ := exec_cases h
  · rfl
  · rfl
  all_goals simp [Instr.command, keyCommands] at hi

/-- Settles O53: each move is made at one phase and leads to the next; a completion comes only in the busy-poll. -/
theorem stepsFollowTheRulesOrder : Obligations.StepsFollowTheRulesOrder := by
  intro s t hone h
  obtain ⟨-, hmoved⟩ := step_cases h
  cases hmoved with
  | complete op size hd ho =>
    have hb : s.accBusy = true := by simp [State.accBusy, ho]
    simp [hone hb, hb]
  | wait hp => simp [hp]
  | take i rest hp => simp [hp]
  | command i t hp he =>
    have hkey (hi : i.command ∈ keyCommands) : t.phase = .idle ∧ i.command ∈ keyCommands :=
      ⟨exec_phase_of_keyCommand he hi, hi⟩
    rw [hp]
    cases i with
    | loadKey128 | loadKey256 | selectKeyslot | reset => exact hkey (by simp [Instr.command, keyCommands])
    | encryptHw | encryptSw | calibNop | calibDiv =>
      cases he
      rfl
    | memRead | memWrite | memRead32 | call => cases he
  | poll hp => simp [hp]
  | loopEnd c hp => simp [hp]
  | loopBody c i hp hi => simp [hp, hi]
  | keyCopy hp | program hp | hwAssert hp | start hp | hwDeassert hp | hwReply hp => simp [hp]
  | swAssert p hp | swCompute p hp | swDeassert p hp | swReply p hp => simp [hp]
  | calibDeassert c hp | calibReply c hp => simp [hp]

/-! The reserved descriptors: R82, R119. -/

theorem setWidth_code_inj (a b : BitVec 2) : a.setWidth 32 = b.setWidth 32 ↔ a = b := by
  revert a b
  decide

theorem ushiftRight_ne_zero_iff (x : Word) : x >>> 16 ≠ 0#32 ↔ 2 ^ 16 ≤ x.toNat := by
  rw [ne_eq, ← BitVec.toNat_inj, BitVec.toNat_ushiftRight, Nat.shiftRight_eq_div_pow, BitVec.toNat_ofNat]
  omega

/-- The size codes the CCU never writes (R119). -/
theorem sizeOf?_eq_none_iff (c : Params) (x : Word) :
    sizeOf? c x = none ↔ (x >>> c.ksizeShift.val) &&& 3#32 ≠ c.ksize128.setWidth 32 ∧
      (x >>> c.ksizeShift.val) &&& 3#32 ≠ c.ksize256.setWidth 32 := by
  rw [shiftRight_and_three, ne_eq, ne_eq, setWidth_code_inj, setWidth_code_inj, sizeOf?]
  split
  · simp_all
  · split <;> simp_all

/-- The reserved encodings of R82 and R119, one by one. -/
theorem descriptorOk_eq_false_iff (c : Params) (d : Descriptor) :
    descriptorOk c d = false ↔
      d.len ≠ 16#32 ∨
      ((d.param >>> c.ksizeShift.val) &&& 3#32 ≠ c.ksize128.setWidth 32 ∧
        (d.param >>> c.ksizeShift.val) &&& 3#32 ≠ c.ksize256.setWidth 32) ∨
      d.param &&& c.pBase = 0#32 ∨
      (d.param &&& c.pHostkey ≠ 0#32 ∧ d.param &&& c.pRedirect ≠ 0#32) ∨
      d.param &&& ~~~(c.pBase ||| c.pHostkey ||| c.pRedirect ||| (3#32 <<< c.ksizeShift.val)) ≠ 0#32 ∨
      2 ^ 16 ≤ d.keyslot.toNat ∨
      (d.param &&& c.pRedirect ≠ 0#32 ∧ 2 ^ 16 ≤ d.dst.toNat) := by
  rw [← sizeOf?_eq_none_iff, ← ushiftRight_ne_zero_iff, ← ushiftRight_ne_zero_iff, ← Params.ksizeMask]
  simp only [descriptorOk, flagSet, Bool.and_eq_false_iff, Bool.or_eq_false_iff, Bool.not_eq_false', Bool.and_eq_true,
    Option.isSome_eq_false_iff, Option.isNone_iff_eq_none, beq_eq_false_iff_ne, bne_iff_ne, bne_eq_false_iff_eq, or_assoc,
    ne_eq]

/-- The start write of HW4 of an idle accelerator faults exactly on a reserved descriptor (R112, log 14). -/
theorem hwStart_fault_iff {s : State} (hc : s.cfg.registersOk) (hb : s.accBusy = false) :
    hwStart s = .fault (.unspecifiedDescriptor s.regs.descriptor) ↔ descriptorOk s.cfg s.regs.descriptor = false := by
  rw [hwStart, busWrite32_start (regAddr_aligned hc .cmd)]
  rcases State.startEngine_cases ((s.setRegs (s.regs.write s.cfg.startValue .cmd)).emit
    (.w (regAddr s.cfg .cmd) s.cfg.startValue)) with ⟨hb', -⟩ | ⟨-, hd, he⟩ | ⟨-, hd, he⟩
  · exact absurd (hb.symm.trans hb') Bool.false_ne_true
  · rw [he]
    exact iff_of_true rfl hd
  · rw [he]
    exact iff_of_false nofun (Bool.ne_false_iff.2 hd)

/-- Settles O54: the model's check of a descriptor is the list of R82 and R119, and the start write makes it. -/
theorem reservedDescriptorsFault : Obligations.ReservedDescriptorsFault := by
  refine ⟨fun s ⟨_, hregs, _⟩ hrun hb hp => ?_, fun s v ⟨_, hregs, _⟩ hv => ?_⟩
  · rw [step_execHw hrun hb hp]
    exact (hwStart_fault_iff hregs hb).trans (descriptorOk_eq_false_iff s.cfg s.regs.descriptor)
  · rw [busWrite32, if_pos (regAddr_aligned hregs .cmd)]
    exact if_neg hv

/-! Dispatch and stops: R31, R83, R86, R154, R155, R159. -/

/-- A whole frame at the head of the service loop is taken, or refused, in the step that finds it (R83, R159). -/
theorem step_frame {s : State} {i : Instr} {rest : List Byte} (h : s.outcome = .running) (hd : s.accDue = false)
    (hp : s.phase = .idle) (hi : decode s.cfg s.inbox = .frame i rest) : step s = takeFrame i rest s.tick := by
  simp [step_ccu h hd, ccuStep, hp, serviceLoop, hi]

/-- At `Exec(c, 1)` the CCU's step is `exec`, whether the accelerator is idle or not (R86). -/
theorem step_execFirst_tick {s : State} {i : Instr} (h : s.outcome = .running) (hd : s.accDue = false)
    (hp : s.phase = .execFirst i) : step s = exec i s.tick := by
  simp [step_ccu h hd, ccuStep, hp]

/-- Settles O10: taking a frame checks it (R159), and `exec` is the step after. -/
theorem stepRunsDecodedInstruction : Obligations.StepRunsDecodedInstruction := by
  refine ⟨fun s i rest hrun hp hd hi => ?_, fun s i hrun hd hp =>
    ⟨step_execFirst_tick hrun hd hp, fun hb => step_execFirst hrun hb hp⟩⟩
  have htake := step_frame hrun hd hp hi
  rw [takeFrame] at htake
  simp only [← accepted_iff]
  split
  case isTrue ha =>
    rw [if_pos ha] at htake
    refine ⟨htake, fun hb => ?_⟩
    rw [State.tick_of_idle hb] at htake
    obtain ⟨u, hu⟩ := exec_of_accepted ha ((s.setInbox rest).setPhase (.execFirst i))
    have hfirst := step_execFirst (s := (s.setInbox rest).setPhase (.execFirst i)) hrun hb rfl
    exact (run_succ 1 htake).trans ((run_one (hfirst.trans hu)).trans hu.symm)
  case isFalse ha =>
    obtain ⟨r, hr⟩ := exec_of_not_accepted (Bool.eq_false_iff.2 ha)
    rw [if_neg ha, hr] at htake
    rw [htake, hr]
    exact ⟨rfl, r, rfl⟩

/-- Settles O14: a stop is recorded in `Outcome`, which `step` reads before anything else (R31). -/
theorem stopsAreTerminal : Obligations.StopsAreTerminal := by
  intro s
  refine ⟨fun r h => ?_, fun f h => ?_⟩ <;> rw [h] <;> exact ⟨rfl, rfl⟩

end Sys2Proof.Machine

/-! The invariant of the machine, clause by clause, along the moves of a step; and what a bus access answers. -/

namespace Sys2Proof.Machine

/-! What the completion, the software encryption and a command's first step leave: R115, R128, R93. -/

@[simp] theorem State.accFinish_outcome (s : State) (op : AccOp) (size : KeyLength) :
    (s.accFinish op size).outcome = s.outcome := by
  rw [s.accFinish_eq]

@[simp] theorem State.accFinish_trig (s : State) (op : AccOp) (size : KeyLength) :
    (s.accFinish op size).trig = s.trig := by
  rw [s.accFinish_eq]

@[simp] theorem State.accFinish_regs (s : State) (op : AccOp) (size : KeyLength) :
    (s.accFinish op size).regs = s.regs := by
  rw [s.accFinish_eq]

@[simp] theorem State.accFinish_keyIn (s : State) (op : AccOp) (size : KeyLength) :
    (s.accFinish op size).keyIn = s.keyIn := by
  rw [s.accFinish_eq]

@[simp] theorem State.accFinish_accOp (s : State) (op : AccOp) (size : KeyLength) :
    (s.accFinish op size).accOp = none := by
  rw [s.accFinish_eq]

@[simp] theorem State.accFinish_trace (s : State) (op : AccOp) (size : KeyLength) :
    (s.accFinish op size).trace = s.trace ++ [.done] := by
  rw [s.accFinish_eq]

@[simp] theorem State.swEncrypt_outcome (s : State) (p : Block) : (s.swEncrypt p).outcome = s.outcome := by
  rw [s.swEncrypt_eq]

@[simp] theorem State.swEncrypt_trig (s : State) (p : Block) : (s.swEncrypt p).trig = s.trig := by
  rw [s.swEncrypt_eq]

@[simp] theorem State.swEncrypt_accOp (s : State) (p : Block) : (s.swEncrypt p).accOp = s.accOp := by
  rw [s.swEncrypt_eq]

@[simp] theorem State.swEncrypt_slots (s : State) (p : Block) : (s.swEncrypt p).slots = s.slots := by
  rw [s.swEncrypt_eq]

@[simp] theorem State.swEncrypt_trace (s : State) (p : Block) : (s.swEncrypt p).trace = s.trace := by
  rw [s.swEncrypt_eq]

/-- The first step of a command does not touch the accelerator or `Outcome` (R93, R99, R128, R145). -/
theorem exec_accelerator {i : Instr} {s t : State} (h : exec i s = .next t) :
    t.outcome = s.outcome ∧ t.slots = s.slots ∧ t.accOp = s.accOp := by
  obtain ⟨k, w, rfl, -⟩ | ⟨slot, dest, b, len, -, -, rfl⟩ | ⟨p, -, rfl⟩ | ⟨p, -, rfl⟩ | ⟨c, n, -, rfl⟩ := exec_cases h <;>
    exact ⟨rfl, rfl, rfl⟩

/-- No command's first step leads between the key copy and the start write (R98). -/
theorem exec_not_keyCopied {i : Instr} {s t : State} (h : exec i s = .next t) : t.phase.keyCopied = false := by
  obtain ⟨k, w, rfl, -⟩ | ⟨slot, dest, b, len, -, -, rfl⟩ | ⟨p, -, rfl⟩ | ⟨p, -, rfl⟩ | ⟨c, n, -, rfl⟩ := exec_cases h <;>
    rfl

/-! `Outcome` and the slot maps: R31, R42. -/

theorem Moved.outcome_eq {s t : State} (h : Moved s t) : t.outcome = s.outcome := by
  cases h with
  | command i t hp he => simpa using (exec_accelerator he).1
  | _ => simp

theorem Descriptor.outSlot_lt (d : Descriptor) : d.outSlot < 2 ^ 16 := (d.dst.setWidth 16).isLt

/-- A redirected output keeps the slot maps canonical (R115). -/
theorem Slots.redirect_wf {sl : Slots} (h : sl.wf) {d : Nat} (hd : d < 2 ^ 16) (e : Block) : (sl.redirect d e).wf := by
  obtain ⟨h128, h256, hout⟩ := h
  exact ⟨cellsErase_wf h128 d, cellsErase_wf h256 d, cellsInsert_wf hout hd e⟩

theorem State.accFinish_slots_wf {s : State} (h : s.slots.wf) (op : AccOp) (size : KeyLength) :
    (s.accFinish op size).slots.wf := by
  obtain ⟨e, d, -, ⟨-, hs⟩ | ⟨-, hs⟩⟩ := s.accFinish_cases op size <;> rw [hs]
  · exact Slots.redirect_wf h op.desc.outSlot_lt e
  · exact h

/-- Only the accelerator's completion writes the slots. -/
theorem Moved.slots_wf {s t : State} (h : Moved s t) (hwf : s.slots.wf) : t.slots.wf := by
  cases h with
  | complete op size => exact s.accFinish_slots_wf hwf op size
  | command i t hp he =>
    obtain ⟨-, hslots, -⟩ := exec_accelerator he
    simpa [hslots] using hwf
  | _ => simpa using hwf

/-! The trigger line: R120 to R125. -/

@[simp] theorem trigReplay_append (tr es : List Event) : trigReplay (tr ++ es) = es.foldl trigAfter (trigReplay tr) := by
  simp [trigReplay]

theorem foldl_programEvents (c : Params) (k : KeyStore) (level : Option Bool) :
    (programEvents c k).foldl trigAfter level = level := rfl

theorem foldl_ackEvents (c : Params) (level : Option Bool) : (ackEvents c).foldl trigAfter level = level := by
  unfold ackEvents
  split <;> rfl

/-- The trigger line, the frame and the level that the trace replays to are the same in `t` as in `s`. -/
def SameTrigger (s t : State) : Prop :=
  t.trig = s.trig ∧ t.phase.framed = s.phase.framed ∧ trigReplay t.trace = trigReplay s.trace

/-- A frame opens between `s` and `t`: `T1` is recorded and the line goes high (R120). -/
def OpensFrame (s t : State) : Prop :=
  s.phase.framed = false ∧ t.phase.framed = true ∧ t.trig = true ∧ t.trace = s.trace ++ [.t1]

/-- A frame closes between `s` and `t`: `T0` is recorded and the line goes low (R121). -/
def ClosesFrame (s t : State) : Prop :=
  s.phase.framed = true ∧ t.phase.framed = false ∧ t.trig = false ∧ t.trace = s.trace ++ [.t0]

/-- Of the commands only a calibration raises the trigger in its first step (R128, R147, R148). -/
theorem exec_trigger {i : Instr} {s t : State} (h : exec i s = .next t) (hs : s.phase.framed = false) :
    SameTrigger s t ∨ OpensFrame s t := by
  obtain ⟨k, w, rfl, -⟩ | ⟨slot, dest, b, len, -, -, rfl⟩ | ⟨p, -, rfl⟩ | ⟨p, -, rfl⟩ | ⟨c, n, -, rfl⟩ := exec_cases h
  · exact .inl ⟨rfl, hs.symm, by simp [foldl_ackEvents]⟩
  · exact .inl ⟨rfl, hs.symm, by simp [foldl_ackEvents]⟩
  · exact .inl ⟨rfl, hs.symm, rfl⟩
  · exact .inl ⟨rfl, hs.symm, rfl⟩
  · exact .inr ⟨hs, rfl, rfl, rfl⟩

/-- A move opens a frame, closes one, or leaves the trigger alone (R122). -/
theorem Moved.trigger {s t : State} (h : Moved s t) : SameTrigger s t ∨ OpensFrame s t ∨ ClosesFrame s t := by
  cases h with
  | command i t hp he =>
    have htick := exec_trigger he (by simp [hp, Phase.framed])
    simp only [SameTrigger, OpensFrame, State.tick_trig, State.tick_phase, State.tick_trace] at htick
    exact htick.imp_right .inl
  | hwAssert hp | swAssert p hp => exact .inr (.inl (by simp [OpensFrame, hp, Phase.framed]))
  | hwDeassert hp | swDeassert p hp | calibDeassert c hp => exact .inr (.inr (by simp [ClosesFrame, hp, Phase.framed]))
  | complete op size | wait hp => exact .inl (by simp [SameTrigger, trigAfter])
  | poll hp =>
    refine .inl ⟨by simp, ?_, by simp [trigAfter]⟩
    cases hb : s.accBusy <;> simp [hp, Phase.framed]
  | keyCopy hp =>
    refine .inl ⟨by simp, by simp [hp, Phase.framed], ?_⟩
    cases hk : s.keys.hostKey <;> simp [trigAfter]
  | take _ _ hp | program hp | start hp | hwReply hp | swCompute _ hp | swReply _ hp | loopEnd _ hp | loopBody _ _ hp
  | calibReply _ hp =>
    exact .inl (by simp [SameTrigger, hp, Phase.framed, trigAfter, foldl_programEvents, foldl_ackEvents])

theorem Moved.trigWindow {s t : State} (h : Moved s t) (hw : TrigWindow s) : TrigWindow t := by
  obtain ⟨htrig, hframed, -⟩ | ⟨-, hframed, htrig, -⟩ | ⟨-, hframed, htrig, -⟩ := h.trigger
  · exact htrig.trans (hw.trans hframed.symm)
  · exact htrig.trans hframed.symm
  · exact htrig.trans hframed.symm

/-- Inside the trigger window a frame opens only on a low line and closes only on a high one. -/
theorem Moved.traceFramed {s t : State} (h : Moved s t) (hw : TrigWindow s) (hf : TraceFramed s) : TraceFramed t := by
  obtain ⟨htrig, -, htrace⟩ | ⟨hframed, -, htrig, htrace⟩ | ⟨hframed, -, htrig, htrace⟩ := h.trigger
  · rw [TraceFramed, htrig, htrace, hf]
  all_goals
    have hlevel : s.trig = _ := hw.trans hframed
    rw [TraceFramed, htrig, htrace, trigReplay_append, hf, hlevel]
    rfl

/-! The operation in flight: R41, R55, R112, R178. -/

theorem OneOperation.accOp_eq_none {s : State} (h : OneOperation s) (hp : s.phase ≠ .poll) : s.accOp = none := by
  cases ho : s.accOp with
  | none => rfl
  | some op => exact absurd (h (by simp [State.accBusy, ho])) hp

/-- After a move no operation is in flight, or HW4 has just started it, or the busy-poll goes on with the one there was. -/
theorem Moved.operation {s t : State} (h : Moved s t) (hone : OneOperation s) :
    t.accOp = none ∨
    (t.phase = .poll ∧ t.keys = s.keys ∧
      (t.accOp = s.accOp ∨ s.phase = .execHw .hw4 ∧ t.accOp = some ⟨s.regs.descriptor, s.keyIn⟩)) := by
  cases h with
  | complete op size => exact .inl (by simp)
  | start hp => exact .inr ⟨rfl, rfl, .inr ⟨hp, rfl⟩⟩
  | poll hp =>
    cases hb : s.accBusy with
    | false => exact .inl (by simpa [State.accBusy] using hb)
    | true => exact .inr (by simp)
  | command i t hp he =>
    obtain ⟨-, -, hop⟩ := exec_accelerator he
    exact .inl (by simpa [hop] using hone.accOp_eq_none (by simp [hp]))
  | _ => exact .inl (by simpa using hone.accOp_eq_none (by simp [*]))

theorem Moved.oneOperation {s t : State} (h : Moved s t) (hone : OneOperation s) : OneOperation t := by
  intro hb
  obtain hnone | ⟨hpoll, -⟩ := h.operation hone
  · simp [State.accBusy, hnone] at hb
  · exact hpoll

/-- The start write latches the descriptor and the key that HW1 and HW2 have put in place (R112, R175). -/
theorem Moved.latchedCurrent {s t : State} (h : Moved s t) (hone : OneOperation s) (hprog : Programmed s)
    (hkey : KeyCopied s) (hl : LatchedCurrent s) : LatchedCurrent t := by
  rw [LatchedCurrent, h.cfg_eq]
  obtain hnone | ⟨-, hkeys, hsame | ⟨hhw4, hstart⟩⟩ := h.operation hone
  · simp [hnone]
  · rwa [hkeys, hsame]
  · rw [hkeys, hstart]
    rintro op ⟨⟩
    exact ⟨hprog (by rw [hhw4]; rfl), hkey (by rw [hhw4]; rfl)⟩

/-! The registers and the key-input region before the start write: R81, R101, R175. -/

theorem Phase.keyCopied_of_programmed {p : Phase} (h : p.programmed = true) : p.keyCopied = true := by
  simp [Phase.keyCopied, h]

/-- Between HW2 and HW4 a move has just written the descriptor, or left it and the key store alone. -/
theorem Moved.programmed {s t : State} (h : Moved s t) (hprog : Programmed s) : Programmed t := by
  intro ht
  cases h with
  | program hp => simp [AccRegs.descriptor, KeyStore.descriptor]
  | complete op size => simpa using hprog (by simpa using ht)
  | wait hp => simpa using hprog (by simpa using ht)
  | hwAssert hp => simpa using hprog (by rw [hp]; rfl)
  | command i t hp he => simpa [exec_not_keyCopied he] using Phase.keyCopied_of_programmed ht
  | poll => split at ht <;> cases ht
  | _ => cases ht

/-- Between HW1 and HW4 a move has just copied the key, or left the region and the key store alone. -/
theorem Moved.keyCopied {s t : State} (h : Moved s t) (hkey : KeyCopied s) : KeyCopied t := by
  intro ht
  cases h with
  | keyCopy hp =>
    intro hhost
    have hhost' : s.keys.hostKey = true := by simpa using hhost
    simp [hhost']
  | complete op size => simpa using hkey (by simpa using ht)
  | wait hp => simpa using hkey (by simpa using ht)
  | program hp => simpa using hkey (by rw [hp]; rfl)
  | hwAssert hp => simpa using hkey (by rw [hp]; rfl)
  | command i t hp he => simp [exec_not_keyCopied he] at ht
  | poll => split at ht <;> cases ht
  | _ => cases ht

/-! Commands that have begun: R159. -/

theorem Phase.checked_iff (p : Phase) : p.checked = true ↔ ∀ i, p = .execFirst i → accepted i = true := by
  cases p <;> simp [Phase.checked]

theorem Moved.accepted {s t : State} (h : Moved s t) (ha : Accepted s) : Accepted t := by
  rw [Accepted, Phase.checked_iff] at ha ⊢
  intro i hi
  obtain ⟨-, j, rest, -, hj, rfl⟩ | ⟨-, hsame⟩ := h.take_or_same
  · cases hi
    exact hj
  · exact ha i (hsame i hi)

/-- Settles O44: every move keeps each clause; the trace's frames lean on the trigger window, and the operation in flight on
the descriptor and the key in place before its start. -/
theorem stepKeepsInv : Obligations.StepKeepsInv := by
  intro s t ⟨hvalid, hrun, hram, hslots, hwindow, htrace, hone, hprog, hkey, hlatched, haccepted⟩ h
  obtain ⟨-, hmoved⟩ := step_cases h
  exact ⟨hmoved.cfg_eq ▸ hvalid, hmoved.outcome_eq.trans hrun, hmoved.ram_storedAtMostOnce.wf hram, hmoved.slots_wf hslots,
    hmoved.trigWindow hwindow, hmoved.traceFramed hwindow htrace, hmoved.oneOperation hone, hmoved.programmed hprog,
    hmoved.keyCopied hkey, hmoved.latchedCurrent hone hprog hkey hlatched, hmoved.accepted haccepted⟩

/-! A STATUS read: R53, R113. -/

theorem getLsbD_statusWord_succ (x : BitVec 31) (busy : Bool) {i : Nat} (hi : i < 31) :
    (statusWord x busy).getLsbD (i + 1) = x.getLsbD i := by
  cases busy <;> simp [statusWord, hi, show i + 1 < 32 by omega]

/-- Bit 0 of a STATUS read is the busy bit in every state (R39). -/
theorem State.getLsbD_zero_statusRead (s : State) : s.statusRead.getLsbD 0 = s.accBusy := s.busyBit_statusRead

/-- A STATUS read changes the trace and the source of draws alone (R113). -/
theorem State.afterStatusRead_eq (s : State) :
    s.afterStatusRead = { s with draws := s.afterStatusRead.draws, trace := s.afterStatusRead.trace } := rfl

/-- Settles O28: the read leaves the operation in flight alone, of which the busy bit is a view. -/
theorem statusReadHasNoSideEffect : Obligations.StatusReadHasNoSideEffect := by
  intro s
  refine ⟨fun x hx i hi => ?_, s.getLsbD_zero_statusRead, ?_, s.afterStatusRead_eq⟩
  · have hdraw : s.draws.status = x := by simp [Draws.status, List.headD_eq_head?_getD, hx]
    rw [State.statusRead, hdraw, getLsbD_statusWord_succ x _ hi]
  · rw [State.getLsbD_zero_statusRead, State.getLsbD_zero_statusRead, State.afterStatusRead_accBusy]

/-! The byte order of the bus: R48. -/

/-- On a little-endian bus byte `i` of an access is bits `8 * i + 7` to `8 * i` of the word. -/
theorem busByte_littleEndian {c : Params} (h : c.targetLe = true) (v : Word) (i : Fin 4) :
    busByte c v i = v.extractLsb' (8 * i.val) 8 := by
  rw [busByte, if_pos h]
  ext j
  simp

/-- Settles O42: the first and the last byte of an access. -/
theorem busIsLittleEndian : Obligations.BusIsLittleEndian :=
  fun _ v h => ⟨busByte_littleEndian h v 0, busByte_littleEndian h v 3⟩

end Sys2Proof.Machine

/-! Command frames: encoding and decoding are inverse to each other (R63 to R75), the wait for a whole frame, the events of a
reply, and the descriptor by case (R79 to R81). -/

namespace Sys2Proof

/-! The parameter bytes of a frame: R47, R68 to R75. -/

/-- The frame lemmas of the twelve constructors, for any instruction (R64). -/
theorem Instr.frameShape (i : Instr) : Laws.FrameShape.Statement i := by
  cases i with
  | loadKey128 k => exact Laws.FrameShape.loadKey128 k
  | loadKey256 k => exact Laws.FrameShape.loadKey256 k
  | selectKeyslot slot dest b => exact Laws.FrameShape.selectKeyslot slot dest b
  | encryptHw p => exact Laws.FrameShape.encryptHw p
  | encryptSw p => exact Laws.FrameShape.encryptSw p
  | reset => exact Laws.FrameShape.reset
  | memRead a n => exact Laws.FrameShape.memRead a n
  | memWrite a w => exact Laws.FrameShape.memWrite a w
  | memRead32 a => exact Laws.FrameShape.memRead32 a
  | call a => exact Laws.FrameShape.call a
  | calibNop n => exact Laws.FrameShape.calibNop n
  | calibDiv n => exact Laws.FrameShape.calibDiv n

/-- A 16-bit field is read back from its two bytes, wherever they stand (R47). -/
theorem param16_bytes16 (pre : List Byte) (v : BitVec 16) (rest : List Byte) :
    param16 (pre ++ (bytes16 v ++ rest)) pre.length = v := by
  simpa [param16, paramByte, bytes16] using be16_bytes v

/-- A 32-bit field is read back from its four bytes, wherever they stand (R47). -/
theorem param32_bytes32 (pre : List Byte) (v : Word) (rest : List Byte) :
    param32 (pre ++ (bytes32 v ++ rest)) pre.length = v := by
  simpa [param32, paramByte, bytes32] using be32_bytes v

theorem paramByte_cons_drop {p : List Byte} {i : Nat} (h : i < p.length) : paramByte p i :: p.drop (i + 1) = p.drop i := by
  rw [List.drop_eq_getElem_cons h, paramByte, List.getD_eq_getElem p _ h]

/-- A 16-bit field is written back as the two bytes it was read from, before those that follow them. -/
theorem bytes16_param16_append_drop {p : List Byte} {i : Nat} (h : i + 2 ≤ p.length) :
    bytes16 (param16 p i) ++ p.drop (i + 2) = p.drop i := by
  rw [param16, bytes16_be16, ← paramByte_cons_drop (show i < p.length by omega),
    ← paramByte_cons_drop (show i + 1 < p.length by omega)]
  rfl

/-- A 32-bit field is written back as the four bytes it was read from, before those that follow them. -/
theorem bytes32_param32_append_drop {p : List Byte} {i : Nat} (h : i + 4 ≤ p.length) :
    bytes32 (param32 p i) ++ p.drop (i + 4) = p.drop i := by
  rw [param32, bytes32_be32, ← paramByte_cons_drop (show i < p.length by omega),
    ← paramByte_cons_drop (show i + 1 < p.length by omega), ← paramByte_cons_drop (show i + 2 < p.length by omega),
    ← paramByte_cons_drop (show i + 3 < p.length by omega)]
  rfl

theorem bytes32_param32 {p : List Byte} (h : p.length = 4) : bytes32 (param32 p 0) = p := by
  have h0 := bytes32_param32_append_drop (p := p) (i := 0) (by omega)
  rwa [List.drop_of_length_le (by omega), List.append_nil] at h0

theorem bytes32_param32_pair {p : List Byte} (h : p.length = 8) :
    bytes32 (param32 p 0) ++ bytes32 (param32 p 4) = p := by
  have h0 := bytes32_param32_append_drop (p := p) (i := 0) (by omega)
  have h4 := bytes32_param32_append_drop (p := p) (i := 4) (by omega)
  rw [List.drop_of_length_le (by omega), List.append_nil] at h4
  rw [h4]
  exact h0

/-! The two directions, command by command. -/

/-- The parameter bytes of an instruction build it again (R68 to R75). -/
theorem Instr.build_paramBytes (i : Instr) : i.command.build i.paramBytes = i := by
  cases i with
  | loadKey128 k => exact congrArg Instr.loadKey128 (paramBlock_toList k)
  | loadKey256 k => exact congrArg Instr.loadKey256 (paramKey256_toList k)
  | selectKeyslot slot dest b =>
    exact congrArg₂ (Instr.selectKeyslot · · b) (param16_bytes16 [] slot _) (param16_bytes16 (bytes16 slot) dest [b])
  | encryptHw p => exact congrArg Instr.encryptHw (paramBlock_toList p)
  | encryptSw p => exact congrArg Instr.encryptSw (paramBlock_toList p)
  | reset => rfl
  | memRead a n => exact congrArg₂ Instr.memRead (param32_bytes32 [] a _) (param32_bytes32 (bytes32 a) n [])
  | memWrite a w => exact congrArg₂ Instr.memWrite (param32_bytes32 [] a _) (param32_bytes32 (bytes32 a) w [])
  | memRead32 a => exact congrArg Instr.memRead32 (param32_bytes32 [] a [])
  | call a => exact congrArg Instr.call (param32_bytes32 [] a [])
  | calibNop n => exact congrArg Instr.calibNop (param32_bytes32 [] n [])
  | calibDiv n => exact congrArg Instr.calibDiv (param32_bytes32 [] n [])

@[simp] theorem Command.command_build (p : List Byte) (cmd : Command) : (cmd.build p).command = cmd := by
  cases cmd <;> rfl

/-- The instruction built from the right number of parameter bytes has those parameter bytes (R68 to R75). -/
theorem Command.paramBytes_build {p : List Byte} {cmd : Command} (h : p.length = cmd.paramLength) :
    (cmd.build p).paramBytes = p := by
  cases cmd with
  | loadKey128 | encryptHw | encryptSw => exact toList_paramBlock p h
  | loadKey256 => exact toList_paramKey256 p h
  | selectKeyslot =>
    have hlen : p.length = 5 := h
    have h0 := bytes16_param16_append_drop (p := p) (i := 0) (by omega)
    have h2 := bytes16_param16_append_drop (p := p) (i := 2) (by omega)
    rw [← paramByte_cons_drop (by omega), List.drop_of_length_le (by omega)] at h2
    rw [← h2, ← List.append_assoc] at h0
    exact h0
  | reset => exact (List.eq_nil_of_length_eq_zero h).symm
  | memRead | memWrite => exact bytes32_param32_pair h
  | memRead32 | call | calibNop | calibDiv => exact bytes32_param32 h

/-- Settles O7: the opcode byte finds its command, and the command's parameter bytes build the instruction. -/
theorem decodeOfEncode : Obligations.DecodeOfEncode := by
  intro c i rest hdistinct
  obtain ⟨-, hlength⟩ := i.frameShape c
  calc decode c (encode c i ++ rest)
    _ = .frame (i.command.build i.paramBytes) rest := decode_frame (commandOf_opcode hdistinct i.command) _ rest hlength
    _ = .frame i rest := by rw [i.build_paramBytes]

/-- Settles O8: what was read is an opcode byte and its command's parameter bytes, which the instruction keeps. -/
theorem encodeOfDecode : Obligations.EncodeOfDecode := by
  intro c bytes i rest h
  obtain ⟨op, cmd, p, rfl, hcmd, hlength, rfl⟩ := decode_frame_cases h
  rw [encode, Command.command_build, Command.paramBytes_build hlength, opcode_of_commandOf hcmd]
  rfl

/-- Settles O9, by running the decoder on each frame (DI1, DI3, DI4, DI6, CA4). -/
theorem writtenFramesDecode : Obligations.WrittenFramesDecode :=
  ⟨rfl, rfl, rfl, rfl, rfl, rfl, rfl, rfl⟩

/-- A frame cut short is waited for (R65). -/
theorem decode_of_short {c : Params} (h : c.opcodesDistinct) {cmd : Command} {p : List Byte}
    (hp : p.length < cmd.paramLength) : decode c (c.opcode cmd :: p) = .incomplete := by
  simp [decode, commandOf_opcode h, hp]

end Sys2Proof

namespace Sys2Proof.Machine

/-! The wait for a frame: R65, R83, R157. -/

/-- A CCU that waits for the rest of a frame, its accelerator idle, does nothing (R65). -/
theorem step_of_incomplete {s : State} (h : s.outcome = .running) (hb : s.accBusy = false) (hp : s.phase = .idle)
    (hi : decode s.cfg s.inbox = .incomplete) : step s = .next s := by
  simp [step_idle_acc h hb, ccuStep, hp, serviceLoop, hi]

/-- Settles O12: an empty wire and a frame cut short are both waited for. -/
theorem waitingForFrameChangesNothing : Obligations.WaitingForFrameChangesNothing := by
  intro s hrun hp hb hwire hdistinct
  refine step_of_incomplete hrun hb hp ?_
  obtain hempty | ⟨cmd, p, hshort, hlength⟩ := hwire
  · rw [hempty]
    rfl
  · rw [hshort, decode_of_short hdistinct hlength]

/-! The events of a step and its reply: R66, R87, R88. -/

/-- `t` adds to the trace of `s` events without a reply, or one reply alone, which begins with `STATUS_OK` and leaves the CCU
Idle. -/
def RepliesAtMostOnce (s t : State) : Prop :=
  (∃ es, t.trace = s.trace ++ es ∧ ∀ b, Event.rep b ∉ es) ∨
    ∃ p, t.trace = s.trace ++ [.rep (s.cfg.statusOk :: p)] ∧ t.phase = .idle

/-- The reply of a command with no payload is the status byte, or there is none (R66). -/
theorem RepliesAtMostOnce.finishAck {s u : State} (htrace : u.trace = s.trace) (hcfg : u.cfg = s.cfg) :
    RepliesAtMostOnce s u.finishAck := by
  cases ha : s.cfg.ackNoData with
  | true => exact .inr ⟨[], by simp [htrace, hcfg, ackEvents, ha], rfl⟩
  | false => exact .inl ⟨[], by simp [htrace, hcfg, ackEvents, ha], by simp⟩

/-- The reply with a block (R66, R87). -/
theorem RepliesAtMostOnce.replyBlock {s u : State} (htrace : u.trace = s.trace) (hcfg : u.cfg = s.cfg) (b : Block) :
    RepliesAtMostOnce s (u.replyBlock b).finish :=
  .inr ⟨b.toList, by simp [htrace, hcfg], rfl⟩

theorem exec_repliesAtMostOnce {i : Instr} {s t : State} (h : exec i s = .next t) : RepliesAtMostOnce s t := by
  obtain ⟨k, w, rfl, -⟩ | ⟨slot, dest, b, len, -, -, rfl⟩ | ⟨p, -, rfl⟩ | ⟨p, -, rfl⟩ | ⟨c, n, -, rfl⟩ := exec_cases h
  · exact .finishAck rfl rfl
  · exact .finishAck rfl rfl
  · exact .inl ⟨[], by simp⟩
  · exact .inl ⟨[], by simp⟩
  · exact .inl ⟨[.t1], by simp⟩

theorem Moved.repliesAtMostOnce {s t : State} (h : Moved s t) : RepliesAtMostOnce s t := by
  cases h with
  | command i t hp he => simpa [RepliesAtMostOnce] using exec_repliesAtMostOnce he
  | hwReply | swReply => exact .replyBlock (by simp) (by simp) _
  | calibReply => exact .finishAck (by simp) (by simp)
  | complete op size => exact .inl ⟨[.done], by simp⟩
  | keyCopy => exact .inl ⟨_, rfl, by split <;> simp⟩
  | program => exact .inl ⟨_, rfl, by simp [programEvents]⟩
  | start => exact .inl ⟨_, rfl, by simp⟩
  | poll => exact .inl ⟨[.r (statusAddr s.cfg) s.tick.statusRead], by simp⟩
  | hwAssert | swAssert => exact .inl ⟨[.t1], by simp⟩
  | hwDeassert | swDeassert | calibDeassert => exact .inl ⟨[.t0], by simp⟩
  | wait | take | swCompute | loopEnd | loopBody => exact .inl ⟨[], by simp⟩

/-- Settles O17: a move that replies records its reply and nothing else. -/
theorem replyClosesCommand : Obligations.ReplyClosesCommand := by
  intro s t h
  obtain ⟨-, hmoved⟩ := step_cases h
  obtain ⟨es, htrace, hnone⟩ | ⟨p, htrace, hidle⟩ := hmoved.repliesAtMostOnce
  · exact ⟨es, htrace, fun b hb => absurd hb (hnone b)⟩
  · refine ⟨_, htrace, fun b hb => ?_⟩
    obtain rfl : b = s.cfg.statusOk :: p := by simpa using hb
    exact ⟨rfl, hidle, rfl⟩

/-! The descriptor by case: R78 to R81. -/

theorem KeyStore.hostKey_eq_false_iff (k : KeyStore) : k.hostKey = false ↔ k.slot ≠ 0#16 := by simp [KeyStore.hostKey]

theorem KeyStore.redirect_eq_false_iff (k : KeyStore) : k.redirect = false ↔ k.slot = 0#16 ∨ k.dest = 0#16 := by
  rw [← Bool.not_eq_true, k.redirect_iff]
  tauto

/-- The bitfield in host-key mode, whatever the destination (R79). -/
theorem paramWord_of_hostKey (c : Params) {k : KeyStore} {len : KeyLength} (hl : k.length = len) (hs : k.slot = 0#16) :
    k.paramWord c = c.pBase ||| sizeBits c (ksizeCode c len) ||| c.pHostkey := by
  simp [paramWord_eq, hl, k.hostKey_iff.2 hs, k.redirect_eq_false_iff.2 (.inl hs)]

/-- The bitfield with a slot's key and the output in the buffer (R79). -/
theorem paramWord_of_slot (c : Params) {k : KeyStore} {len : KeyLength} (hl : k.length = len)
    (hs : k.slot ≠ 0#16) (hd : k.dest = 0#16) :
    k.paramWord c = c.pBase ||| sizeBits c (ksizeCode c len) := by
  simp [paramWord_eq, hl, k.hostKey_eq_false_iff.2 hs, k.redirect_eq_false_iff.2 (.inr hd)]

/-- The bitfield with a slot's key and a redirected output (R79). -/
theorem paramWord_of_redirect (c : Params) {k : KeyStore} {len : KeyLength} (hl : k.length = len)
    (hs : k.slot ≠ 0#16) (hd : k.dest ≠ 0#16) :
    k.paramWord c = c.pBase ||| sizeBits c (ksizeCode c len) ||| c.pRedirect := by
  simp [paramWord_eq, hl, k.hostKey_eq_false_iff.2 hs, k.redirect_iff.2 ⟨hs, hd⟩]

/-- Settles O18: the three cases of slot and destination, at each key length. -/
theorem paramBitfieldCases : Obligations.ParamBitfieldCases :=
  fun c _ => ⟨paramWord_of_hostKey c, paramWord_of_slot c, paramWord_of_redirect c,
    paramWord_of_hostKey c, paramWord_of_slot c, paramWord_of_redirect c⟩

theorem toNat_slotWord (v : SlotId) : (v.setWidth 32).toNat = v.toNat := BitVec.toNat_setWidth_of_le (by decide)

theorem KeyStore.dstWord_of_not_redirect (c : Params) {k : KeyStore} (h : k.redirect = false) :
    k.dstWord c = c.bufAddr := by
  simp [KeyStore.dstWord, h]

/-- Settles O20: DST is the zero-extended destination exactly where the output is redirected (R80). -/
theorem descriptorOfKeyStore : Obligations.DescriptorOfKeyStore := by
  intro c k
  refine ⟨rfl, rfl, toNat_slotWord k.slot, fun hs hd => ?_, fun h => ?_⟩
  · rw [k.descriptor_dst, k.dstWord_of_redirect c (k.redirect_iff.2 ⟨hs, hd⟩), toNat_slotWord]
  · exact k.dstWord_of_not_redirect c (k.redirect_eq_false_iff.2 h)

end Sys2Proof.Machine

/-! Refusals and the wire: an unknown opcode, the debug commands, and bytes the host sends while the machine moves (R84, R89,
R90). -/

namespace Sys2Proof

/-! The decoder on bytes that name no command, and on a wire that grows: R65, R67. -/

theorem commandOf_eq_none {c : Params} {op : Byte} (h : ∀ cmd, c.opcode cmd ≠ op) : c.commandOf op = none :=
  List.find?_eq_none.2 fun cmd _ => by simpa using h cmd

theorem decode_of_commandOf_eq_none {c : Params} {op : Byte} (h : c.commandOf op = none) (rest : List Byte) :
    decode c (op :: rest) = .unknownOpcode op := by
  simp [decode, h]

/-- What the decoder has read when it answers an unknown opcode (R67). -/
theorem decode_unknownOpcode_cases {c : Params} {bytes : List Byte} {op : Byte} (h : decode c bytes = .unknownOpcode op) :
    c.commandOf op = none ∧ ∃ rest, bytes = op :: rest := by
  cases bytes with
  | nil => simp [decode] at h
  | cons b tl =>
    simp only [decode] at h
    split at h
    case h_1 hnone =>
      cases h
      exact ⟨hnone, tl, rfl⟩
    case h_2 => split at h <;> cases h

theorem decode_append_of_frame {c : Params} {bytes : List Byte} {i : Instr} {rest : List Byte}
    (h : decode c bytes = .frame i rest) (more : List Byte) : decode c (bytes ++ more) = .frame i (rest ++ more) := by
  obtain ⟨op, cmd, p, rfl, hcmd, hlength, rfl⟩ := decode_frame_cases h
  rw [List.cons_append, List.append_assoc]
  exact decode_frame hcmd p _ hlength

theorem decode_append_of_unknownOpcode {c : Params} {bytes : List Byte} {op : Byte}
    (h : decode c bytes = .unknownOpcode op) (more : List Byte) : decode c (bytes ++ more) = .unknownOpcode op := by
  obtain ⟨hnone, rest, rfl⟩ := decode_unknownOpcode_cases h
  exact decode_of_commandOf_eq_none hnone _

end Sys2Proof

namespace Sys2Proof.Machine

/-! Refusals: R89, R90, R154. -/

/-- A refusal is recorded in `Outcome` alone and stands from then on (R154). -/
theorem refusal_recorded {o : Result} {r : Refusal} (s : State) (h : o = .refused r) :
    s.record o = { s with outcome := .refused r } ∧ step (s.record o) = .refused r := by
  rw [h]
  exact ⟨rfl, rfl⟩

theorem step_of_unknownOpcode {s : State} {op : Byte} (h : s.outcome = .running) (hd : s.accDue = false)
    (hp : s.phase = .idle) (hi : decode s.cfg s.inbox = .unknownOpcode op) : step s = .refused (.unknownOpcode op) := by
  simp [step_ccu h hd, ccuStep, hp, serviceLoop, hi]

/-- Settles O11: the decoder finds no command for the byte, whatever follows it. -/
theorem unknownOpcodeRefused : Obligations.UnknownOpcodeRefused := by
  intro s op rest hrun hp hd hwire hnone
  have hdecode : decode s.cfg s.inbox = .unknownOpcode op := by
    rw [hwire]
    exact decode_of_commandOf_eq_none (commandOf_eq_none hnone) rest
  have hstep := step_of_unknownOpcode hrun hd hp hdecode
  exact ⟨hstep, refusal_recorded s hstep⟩

theorem exec_of_debugMnemonic {i : Instr} {m : String} (h : debugMnemonic i.command = some m) (s : State) :
    exec i s = .refused (.outOfScope m) := by
  cases i with
  | memRead | memWrite | memRead32 | call =>
    cases h
    rfl
  | _ => cases h

/-- Settles O13: the four debug commands are the ones with a mnemonic, and each answers it. -/
theorem debugCommandsRefused : Obligations.DebugCommandsRefused := by
  intro i m s h
  have hexec := exec_of_debugMnemonic h s
  exact ⟨hexec, refusal_recorded s hexec⟩

/-! Bytes the host sends: R84, R91. No operation reads the wire but the head of the service loop, so each of them commutes
with the sending of more bytes. -/

/-- The answer `o` where the host sends `bytes` after it; a stop stands. -/
def sendAfter (bytes : List Byte) (o : Result) : Result := andThen o fun t => .next (t.hostSend bytes)

@[simp] theorem sendAfter_next (bytes : List Byte) (t : State) : sendAfter bytes (.next t) = .next (t.hostSend bytes) := rfl

@[simp] theorem sendAfter_fault (bytes : List Byte) (f : Fault) : sendAfter bytes (.fault f) = .fault f := rfl

@[simp] theorem sendAfter_refused (bytes : List Byte) (r : Refusal) : sendAfter bytes (.refused r) = .refused r := rfl

/-- Two operations in turn commute with the sending where each of them does. -/
theorem andThen_sendAfter {bytes : List Byte} {o o' : Result} {f : State → Result} (ho : o' = sendAfter bytes o)
    (hf : ∀ t : State, f (t.hostSend bytes) = sendAfter bytes (f t)) :
    andThen o' f = sendAfter bytes (andThen o f) := by
  rw [ho]
  cases o with
  | next t => exact hf t
  | fault f => rfl
  | refused r => rfl

section

variable (s : State) (bytes : List Byte)

/-! The updates of fields other than the wire, and what is read of them. -/

@[simp] theorem State.hostSend_accDue : (s.hostSend bytes).accDue = s.accDue := rfl

@[simp] theorem State.hostSend_setKeys (v : KeyStore) : (s.hostSend bytes).setKeys v = (s.setKeys v).hostSend bytes := rfl

@[simp] theorem State.hostSend_setSwKey (v : Option Block) :
    (s.hostSend bytes).setSwKey v = (s.setSwKey v).hostSend bytes := rfl

@[simp] theorem State.hostSend_setPhase (v : Phase) : (s.hostSend bytes).setPhase v = (s.setPhase v).hostSend bytes := rfl

@[simp] theorem State.hostSend_setAccOp (v : Option AccOp) :
    (s.hostSend bytes).setAccOp v = (s.setAccOp v).hostSend bytes := rfl

@[simp] theorem State.hostSend_emit (e : Event) : (s.hostSend bytes).emit e = (s.emit e).hostSend bytes := rfl

@[simp] theorem State.hostSend_writeBuf (b : Block) : (s.hostSend bytes).writeBuf b = (s.writeBuf b).hostSend bytes := by
  unfold State.writeBuf
  rw [State.hostSend_ram, State.hostSend_cfg]
  rfl

@[simp] theorem State.hostSend_statusRead : (s.hostSend bytes).statusRead = s.statusRead := rfl

@[simp] theorem State.hostSend_afterStatusRead :
    (s.hostSend bytes).afterStatusRead = s.afterStatusRead.hostSend bytes := rfl

@[simp] theorem State.hostSend_takeBlock : (s.hostSend bytes).takeBlock = s.takeBlock.hostSend bytes := rfl

@[simp] theorem State.hostSend_assertTrig : (s.hostSend bytes).assertTrig = s.assertTrig.hostSend bytes := rfl

@[simp] theorem State.hostSend_deassertTrig : (s.hostSend bytes).deassertTrig = s.deassertTrig.hostSend bytes := rfl

@[simp] theorem State.hostSend_buf : (s.hostSend bytes).buf = s.buf := rfl

@[simp] theorem State.hostSend_replyBlock (b : Block) :
    (s.hostSend bytes).replyBlock b = (s.replyBlock b).hostSend bytes := rfl

@[simp] theorem State.hostSend_finish : (s.hostSend bytes).finish = s.finish.hostSend bytes := rfl

@[simp] theorem State.hostSend_finishAck : (s.hostSend bytes).finishAck = s.finishAck.hostSend bytes := rfl

@[simp] theorem State.hostSend_tick : (s.hostSend bytes).tick = s.tick.hostSend bytes := by
  unfold State.tick
  rw [State.hostSend_accBusy]
  split <;> rfl

/-! The accelerator and the bus. -/

@[simp] theorem State.hostSend_accOutput (d : Descriptor) (e : Block) :
    (s.hostSend bytes).accOutput d e = (s.accOutput d e).hostSend bytes := by
  unfold State.accOutput
  rw [State.hostSend_cfg]
  split <;> rfl

theorem State.hostSend_accFinish (op : AccOp) (size : KeyLength) :
    (s.hostSend bytes).accFinish op size = (s.accFinish op size).hostSend bytes := by
  cases he : accCipher s.cfg s.slots op (memRead s.ram op.desc.src) size <;> simp [State.accFinish, he]

theorem State.hostSend_accComplete : (s.hostSend bytes).accComplete = sendAfter bytes s.accComplete := by
  unfold State.accComplete
  rw [State.hostSend_accOp]
  split
  case h_1 => rfl
  case h_2 op =>
    rw [State.hostSend_cfg]
    split
    · rw [State.hostSend_accFinish, sendAfter_next]
    · rfl

theorem State.hostSend_startEngine : (s.hostSend bytes).startEngine = sendAfter bytes s.startEngine := by
  unfold State.startEngine
  rw [State.hostSend_accBusy, State.hostSend_cfg, State.hostSend_regs]
  split
  · rfl
  · split <;> rfl

theorem State.hostSend_afterWrite (v : Word) (r : Reg) :
    (s.hostSend bytes).afterWrite v r = sendAfter bytes (s.afterWrite v r) := by
  cases r with
  | cmd =>
    by_cases hv : v = s.cfg.startValue
    · simpa [State.afterWrite, hv] using s.hostSend_startEngine bytes
    · simp [State.afterWrite, hv]
  | _ => rfl

theorem busWrite32_hostSend (r : Reg) (v : Word) :
    busWrite32 r v (s.hostSend bytes) = sendAfter bytes (busWrite32 r v s) := by
  unfold busWrite32
  rw [State.hostSend_cfg]
  split
  · exact ((s.setRegs (s.regs.write v r)).emit (.w (regAddr s.cfg r) v)).hostSend_afterWrite bytes v r
  · rfl

theorem keyRegionWrite_hostSend (b : Key256) :
    keyRegionWrite b (s.hostSend bytes) = sendAfter bytes (keyRegionWrite b s) := by
  unfold keyRegionWrite
  rw [State.hostSend_cfg]
  split <;> rfl

/-! The steps of a command. -/

theorem hwKeyCopy_hostSend : hwKeyCopy (s.hostSend bytes) = sendAfter bytes (hwKeyCopy s) := by
  refine andThen_sendAfter ?_ fun _ => rfl
  rw [State.hostSend_keys]
  split
  · exact keyRegionWrite_hostSend s bytes _
  · rfl

theorem hwProgram_hostSend : hwProgram (s.hostSend bytes) = sendAfter bytes (hwProgram s) :=
  andThen_sendAfter (busWrite32_hostSend s bytes _ _) fun s1 =>
  andThen_sendAfter (busWrite32_hostSend s1 bytes _ _) fun s2 =>
  andThen_sendAfter (busWrite32_hostSend s2 bytes _ _) fun s3 =>
  andThen_sendAfter (busWrite32_hostSend s3 bytes _ _) fun s4 =>
  andThen_sendAfter (busWrite32_hostSend s4 bytes _ _) fun _ => rfl

theorem hwStart_hostSend : hwStart (s.hostSend bytes) = sendAfter bytes (hwStart s) :=
  andThen_sendAfter (busWrite32_hostSend s bytes _ _) fun _ => rfl

theorem hwStep_hostSend (k : HwStep) : hwStep k (s.hostSend bytes) = sendAfter bytes (hwStep k s) := by
  cases k with
  | hw1 => exact hwKeyCopy_hostSend s bytes
  | hw2 => exact hwProgram_hostSend s bytes
  | hw3 => simp [hwStep, hwAssert]
  | hw4 => exact hwStart_hostSend s bytes
  | hw6 => simp [hwStep, hwDeassert]
  | hw7 => simp [hwStep, hwReply]

theorem pollStep_hostSend : pollStep (s.hostSend bytes) = sendAfter bytes (pollStep s) := by
  cases ha : aligned4 (statusAddr s.cfg) <;> simp [pollStep, ha]

@[simp] theorem State.hostSend_swEncrypt (p : Block) :
    (s.hostSend bytes).swEncrypt p = (s.swEncrypt p).hostSend bytes := by
  cases hl : s.keys.length with
  | l256 => simp [State.swEncrypt, hl]
  | l128 => cases hk : s.swKey <;> simp [State.swEncrypt, hl, hk]

theorem swStep_hostSend (p : Block) (k : SwStep) : swStep p k (s.hostSend bytes) = sendAfter bytes (swStep p k s) := by
  cases k with
  | sw1 => simp [swStep, swAssert]
  | sw2 => simp [swStep, swCompute]
  | sw3 => simp [swStep, swDeassert]
  | sw4 => simp [swStep, swReply]

theorem calibStep_hostSend (c : CalibKind) (k : CalibStep) :
    calibStep c k (s.hostSend bytes) = sendAfter bytes (calibStep c k s) := by
  cases k <;> rfl

theorem loopStep_hostSend (c : CalibKind) (i : Word) :
    loopStep c i (s.hostSend bytes) = sendAfter bytes (loopStep c i s) := by
  unfold loopStep
  split <;> rfl

theorem exec_hostSend (i : Instr) : exec i (s.hostSend bytes) = sendAfter bytes (exec i s) := by
  cases i with
  | loadKey128 k => simp [exec, execLoadKey128]
  | loadKey256 k => simp [exec, execLoadKey256]
  | selectKeyslot slot dest b => cases hb : keyLengthOfByte b <;> simp [exec, execSelectKeyslot, hb]
  | encryptHw p => simp [exec, execEncryptHw]
  | encryptSw p => simp [exec, execEncryptSw]
  | reset => simp [exec, execReset]
  | calibNop n => simp [exec, execCalibNop, calibStart]
  | calibDiv n => simp [exec, execCalibDiv, calibStart]
  | memRead | memWrite | memRead32 | call => rfl

/-! The service loop, and the step. -/

theorem takeFrame_hostSend (i : Instr) (rest : List Byte) :
    takeFrame i (rest ++ bytes) (s.hostSend bytes) = sendAfter bytes (takeFrame i rest s) := by
  unfold takeFrame
  split
  · rfl
  · exact exec_hostSend s bytes i

/-- The head of the service loop reads no further than the frame or the unknown opcode it finds (R65, R84). -/
theorem serviceLoop_hostSend (h : decode s.cfg s.inbox ≠ .incomplete) :
    serviceLoop (s.hostSend bytes) = sendAfter bytes (serviceLoop s) := by
  unfold serviceLoop
  rw [State.hostSend_cfg, State.hostSend_inbox]
  cases hi : decode s.cfg s.inbox with
  | frame i rest =>
    rw [decode_append_of_frame hi]
    exact takeFrame_hostSend s bytes i rest
  | incomplete => exact absurd hi h
  | unknownOpcode op =>
    rw [decode_append_of_unknownOpcode hi]
    rfl

theorem ccuStep_hostSend (h : s.phase = .idle → decode s.cfg s.inbox ≠ .incomplete) :
    ccuStep (s.hostSend bytes) = sendAfter bytes (ccuStep s) := by
  unfold ccuStep
  rw [State.hostSend_phase]
  cases hp : s.phase with
  | idle => exact serviceLoop_hostSend s bytes (h hp)
  | execFirst i => exact exec_hostSend s bytes i
  | execHw k => exact hwStep_hostSend s bytes k
  | execSw p k => exact swStep_hostSend s bytes p k
  | execCalib c k => exact calibStep_hostSend s bytes c k
  | poll => exact pollStep_hostSend s bytes
  | loop c i => exact loopStep_hostSend s bytes c i

/-- A step commutes with the sending, stops included, unless the CCU waits for the rest of a frame (R84). -/
theorem step_hostSend (h : s.phase = .idle → s.accDue = false → decode s.cfg s.inbox ≠ .incomplete) :
    step (s.hostSend bytes) = sendAfter bytes (step s) := by
  cases ho : s.outcome with
  | refused r => simp [step, ho]
  | faulted f => simp [step, ho]
  | running =>
    cases hd : s.accDue with
    | true =>
      rw [step_acc ho hd]
      exact (step_acc (s := s.hostSend bytes) ho hd).trans (s.hostSend_accComplete bytes)
    | false =>
      have hframe : s.tick.phase = .idle → decode s.tick.cfg s.tick.inbox ≠ .incomplete := by simpa using (h · hd)
      calc step (s.hostSend bytes)
        _ = ccuStep (s.hostSend bytes).tick := step_ccu ho hd
        _ = ccuStep (s.tick.hostSend bytes) := by rw [State.hostSend_tick]
        _ = sendAfter bytes (ccuStep s.tick) := ccuStep_hostSend s.tick bytes hframe
        _ = sendAfter bytes (step s) := by rw [step_ccu ho hd]

end

/-- Settles O16: only the head of the service loop reads the wire, and a whole frame is all it reads. -/
theorem hostBytesWaitTheirTurn : Obligations.HostBytesWaitTheirTurn := by
  intro s t bytes hstep hframe
  rw [step_hostSend s bytes hframe, hstep, sendAfter_next]

end Sys2Proof.Machine

/-! The key store commands: what each writes, and that they write nothing else (R66, R71, R93 to R97). -/

namespace Sys2Proof.Machine

/-! The key material under a 128-bit key: R94. -/

theorem overlay128_of_lt (old : Key256) (k : Block) {i : Nat} (h : i < 16) : (overlay128 old k)[i] = k[i] := by
  simp [overlay128, h]

theorem overlay128_of_ge (old : Key256) (k : Block) {i : Nat} (h : i < 32) (hi : 16 ≤ i) :
    (overlay128 old k)[i] = old[i] := by
  simp [overlay128, Nat.not_lt.2 hi]

/-! The whole effect of a key store command: R66, R93. -/

/-- A write of the key state and the reply, field by field: everything but these four fields is that of `s` (R66, R93). -/
theorem State.setKeyState_finishAck (s : State) (keys : KeyStore) (w : Option Block) :
    ((s.setKeys keys).setSwKey w).finishAck = { s with
      keys := keys, swKey := w, phase := .idle,
      trace := s.trace ++ (if s.cfg.ackNoData = true then [.rep [s.cfg.statusOk]] else []) } := rfl

/-- select-keyslot leaves the software key as it was (R96). -/
theorem State.setKeys_finishAck (s : State) (keys : KeyStore) :
    (s.setKeys keys).finishAck = ((s.setKeys keys).setSwKey s.swKey).finishAck := rfl

/-- A key store command that goes on has written the key state and replied. -/
theorem exec_eq_next_of_keyCommand {i : Instr} {s t : State} (h : exec i s = .next t) (hi : i.command ∈ keyCommands) :
    ∃ keys w, t = ((s.setKeys keys).setSwKey w).finishAck := by
  obtain ⟨keys, w, rfl, -⟩ | ⟨slot, dest, b, len, -, -, rfl⟩ | ⟨p, rfl, -⟩ | ⟨p, rfl, -⟩ | ⟨c, n, rfl | rfl, -⟩ :=
    exec_cases h
  · exact ⟨keys, w, rfl⟩
  · exact ⟨_, s.swKey, s.setKeys_finishAck _⟩
  all_goals simp [Instr.command, keyCommands] at hi

/-- Settles O1: the new key material is the overlay of the operand on the old one. -/
theorem loadKey128WritesKeyStore : Obligations.LoadKey128WritesKeyStore := by
  intro k s
  refine ⟨overlay128 s.keys.material k, fun i h => overlay128_of_lt _ k h, fun i h hi => overlay128_of_ge _ k h hi, ?_⟩
  exact congrArg Host.Outcome.next (s.setKeyState_finishAck _ (some k))

/-- Settles O5, by inversion: the four commands have one shape of effect. -/
theorem keyCommandsTouchOnlyKeyState : Obligations.KeyCommandsTouchOnlyKeyState := by
  intro i s t hi h
  obtain ⟨keys, w, rfl⟩ := exec_eq_next_of_keyCommand h hi
  exact s.setKeyState_finishAck keys w

/-- Settles O2: the key state written is the operand, with no software key. -/
theorem loadKey256WritesKeyStore : Obligations.LoadKey256WritesKeyStore := fun k s =>
  congrArg Host.Outcome.next (s.setKeyState_finishAck ⟨k, .l256, 0#16, 0#16⟩ none)

/-- Settles O4: the key state written is the default one. -/
theorem resetCommandRestoresDefaults : Obligations.ResetCommandRestoresDefaults := fun s =>
  congrArg Host.Outcome.next (s.setKeyState_finishAck ⟨zeroKey, .l128, 0#16, 0#16⟩ (some zeroBlock))

/-! select-keyslot, by its length byte: R71, R96. -/

theorem exec_selectKeyslot_of_some {b : Byte} {len : KeyLength} (h : keyLengthOfByte b = some len) (slot dest : SlotId)
    (s : State) :
    exec (.selectKeyslot slot dest b) s = .next { s with
      keys := ⟨s.keys.material, len, slot, dest⟩, phase := .idle,
      trace := s.trace ++ (if s.cfg.ackNoData = true then [.rep [s.cfg.statusOk]] else []) } := by
  simp only [exec, execSelectKeyslot, h, State.setKeys_finishAck, State.setKeyState_finishAck]

theorem exec_selectKeyslot_of_none {b : Byte} (h : keyLengthOfByte b = none) (slot dest : SlotId) (s : State) :
    exec (.selectKeyslot slot dest b) s = .refused (.unspecifiedKeyLength b) := by
  rw [exec, execSelectKeyslot, h]

/-- Settles O3: two length bytes have a meaning (R71); any other is refused, and a refusal is recorded in `Outcome` alone. -/
theorem selectKeyslotSetsSlotsAndLength : Obligations.SelectKeyslotSetsSlotsAndLength := by
  intro slot dest b s
  split
  case isTrue h16 =>
    subst h16
    exact exec_selectKeyslot_of_some rfl slot dest s
  case isFalse h16 =>
    split
    case isTrue h32 =>
      subst h32
      exact exec_selectKeyslot_of_some rfl slot dest s
    case isFalse h32 =>
      have hnone : keyLengthOfByte b = none := by simp [keyLengthOfByte, h16, h32]
      have hexec := exec_selectKeyslot_of_none hnone slot dest s
      exact ⟨hexec, refusal_recorded s hexec⟩

end Sys2Proof.Machine

/-! encrypt-hw and its accelerator, step by step: the key copy, the start write, the busy-poll, the completion, and the whole
run to the reply (R98 to R117). -/

namespace Sys2Proof.Machine

/-! The block goes into the buffer: R98, R99. -/

/-- Settles O22: the step is one store of the block at `BUF_ADDR`. -/
theorem encryptHwStoresBlock : Obligations.EncryptHwStoresBlock := by
  intro p s
  obtain ⟨hbuf, hbytes, hother⟩ := blockReadAfterWrite s.ram s.cfg.bufAddr p
  exact ⟨_, rfl, rfl, hbuf, hbytes, hother⟩

/-! The key copy: R101. -/

/-- At a label of encrypt-hw the CCU takes the step of that label, whether the accelerator is idle or not (R98). -/
theorem step_execHw_tick {s : State} {k : HwStep} (h : s.outcome = .running) (hd : s.accDue = false)
    (hp : s.phase = .execHw k) : step s = hwStep k s.tick := by
  simp [step_ccu h hd, ccuStep, hp]

/-- Settles O25: the step is HW1, and the slot id decides the mode (R78). -/
theorem keyCopyOnlyInHostKeyMode : Obligations.KeyCopyOnlyInHostKeyMode := by
  intro s ⟨_, _, ⟨hkey, _⟩, _⟩ hrun hd hp
  have hstep : step s = hwKeyCopy s.tick := step_execHw_tick hrun hd hp
  rw [hstep, hwKeyCopy_next (by simpa using hkey), State.tick_keys]
  simp only [s.keys.hostKey_iff]
  split
  · exact congrArg Host.Outcome.next (by apply State.ext <;> simp)
  · rfl

/-! The start write: R104, R112, R119. -/

theorem hwStart_of_busy {s : State} (hc : s.cfg.registersOk) (hb : s.accBusy = true) :
    hwStart s = .fault .startWhileBusy := by
  simp [hwStart, busWrite32_start (regAddr_aligned hc .cmd), State.startEngine, hb, andThen]

/-- What the start write leaves of an idle accelerator with a descriptor that has a meaning (R112). -/
def State.started (s : State) : State :=
  { s with
    regs := { s.regs with cmd := s.cfg.startValue }, accOp := some ⟨s.regs.descriptor, s.keyIn⟩, accWait := s.draws.latency,
    draws := s.takeLatency.draws,
    trace := s.trace ++ [.w (s.cfg.accBase + s.cfg.offCmd) s.cfg.startValue, .start], phase := .poll }

theorem hwStart_next {s : State} (hc : s.cfg.registersOk) (hb : s.accBusy = false)
    (hd : descriptorOk s.cfg s.regs.descriptor = true) : hwStart s = .next s.started := by
  have hd' : descriptorOk s.cfg (s.regs.write s.cfg.startValue .cmd).descriptor = true := hd
  simp only [hwStart, busWrite32_start (regAddr_aligned hc .cmd), State.startEngine, State.emit_accBusy,
    State.setRegs_accBusy, hb, State.emit_cfg, State.setRegs_cfg, State.emit_regs, State.setRegs_regs, hd', andThen]
  refine congrArg Host.Outcome.next ?_
  apply State.ext <;> simp [State.started, AccRegs.write, AccRegs.descriptor, regAddr]

/-- Settles O26: the three answers of the start write; a machine without an operation in flight does not tick. -/
theorem startWriteLatchesDescriptor : Obligations.StartWriteLatchesDescriptor := by
  intro s ⟨_, hregs, _⟩ hrun hd hp
  split
  case isTrue hb =>
    have hstep : step s = hwStart s.tick := step_execHw_tick hrun hd hp
    rw [hstep, hwStart_of_busy (by simpa using hregs) (by simpa using hb)]
  case isFalse hb =>
    have hidle : s.accBusy = false := Bool.eq_false_iff.2 hb
    have hstep : step s = hwStart s := step_execHw hrun hidle hp
    rw [hstep]
    split
    case isTrue hbad => exact (hwStart_fault_iff hregs hidle).2 hbad
    case isFalse hok => exact ⟨_, hwStart_next hregs hidle (Bool.eq_true_of_not_eq_false hok), rfl, rfl, rfl⟩

/-! The busy-poll: R105, R113, R117. -/

/-- One iteration of the busy-poll: a read of STATUS that shows the busy bit, and the next phase by that bit (R105, R113). -/
theorem step_poll_next {s : State} (hc : s.cfg.registersOk) (h : s.outcome = .running) (hd : s.accDue = false)
    (hp : s.phase = .poll) :
    step s = .next { s with
      phase := if s.accBusy = true then .poll else .execHw .hw6, draws := s.takeStatus.draws, accWait := s.tick.accWait,
      trace := s.trace ++ [.r (s.cfg.accBase + s.cfg.offStatus) s.statusRead] } := by
  rw [step_poll h hd hp, pollStep_next (by simpa using hc)]
  refine congrArg Host.Outcome.next ?_
  apply State.ext <;> simp [State.statusRead, statusAddr]

/-- Settles O27: the word read is the STATUS word, whose bit 0 is the busy bit. -/
theorem busyPollReadsStatusOnce : Obligations.BusyPollReadsStatusOnce :=
  fun s ⟨_, hregs, _⟩ hrun hd hp =>
    ⟨s.statusRead, _, step_poll_next hregs hrun hd hp, s.getLsbD_zero_statusRead, rfl⟩

theorem State.accDue_of_accWait_ne {s : State} (h : s.accWait ≠ some 0) : s.accDue = false := by
  simp [State.accDue, h]

/-- While its completion is not due, an operation in flight keeps the CCU in the busy-poll: `n` steps are `n` reads of STATUS
that show busy (R117, R156). -/
theorem run_busyPoll (n : Nat) {s : State} (hc : s.cfg.registersOk) (h : s.outcome = .running) (hp : s.phase = .poll)
    (hb : s.accBusy = true) (hw : ∀ m < n, s.accWait ≠ some m) :
    ∃ (reads : List Word) (d : Draws), reads.length = n ∧ (∀ v ∈ reads, v.getLsbD 0 = true) ∧
      core.run n s = .next { s with
        accWait := s.accWait.map (· - n), draws := d,
        trace := s.trace ++ reads.map (.r (s.cfg.accBase + s.cfg.offStatus)) } := by
  induction n generalizing s with
  | zero =>
    refine ⟨[], s.draws, rfl, by simp, ?_⟩
    rw [run_zero]
    exact congrArg Host.Outcome.next (by apply State.ext <;> simp)
  | succ n ih =>
    have hstep := step_poll_next hc h (State.accDue_of_accWait_ne (hw 0 n.succ_pos)) hp
    rw [if_pos hb, ← hp, State.tick_accWait, if_pos hb] at hstep
    have hw' : ∀ m < n, s.accWait.map (· - 1) ≠ some m := by
      intro m hm hmap
      obtain ⟨w, hsome, hsub⟩ := Option.map_eq_some_iff.1 hmap
      have h0 := hw 0 n.succ_pos
      have hm1 := hw (m + 1) (by omega)
      rw [hsome, ne_eq, Option.some.injEq] at h0 hm1
      omega
    obtain ⟨reads, d, hlength, hbusy, hruns⟩ := ih (s := { s with
      draws := s.takeStatus.draws, accWait := s.accWait.map (· - 1),
      trace := s.trace ++ [.r (s.cfg.accBase + s.cfg.offStatus) s.statusRead] }) hc h hp hb hw'
    refine ⟨s.statusRead :: reads, d, by simp [hlength], ?_, ?_⟩
    · simpa [State.getLsbD_zero_statusRead, hb] using hbusy
    · rw [run_succ n hstep, hruns]
      refine congrArg Host.Outcome.next ?_
      apply State.ext <;> simp [Function.comp_def, Nat.sub_sub, Nat.add_comm 1 n]

/-- Settles O32: a completion that is never due leaves the busy-poll to itself. -/
theorem stuckAcceleratorHangs : Obligations.StuckAcceleratorHangs := by
  intro n s ⟨_, hregs, _⟩ hrun hp hb hw
  obtain ⟨reads, d, hlength, hbusy, hruns⟩ := run_busyPoll n hregs hrun hp hb (by simp [hw])
  refine ⟨_, reads, hruns, hlength, hbusy, by simp [hw], fun hwindow => ?_⟩
  exact hwindow.trans (by rw [hp]; rfl)

/-! The completion: R114, R115. -/

/-- Settles O29: the completion stores the ciphertext at DST, and a block reads back where it was stored. -/
theorem completionInPlace : Obligations.CompletionInPlace := by
  intro s op size hrun hop hwait hsize hflag
  obtain ⟨e, d, he, ⟨hset, -⟩ | ⟨-, hfin⟩⟩ := s.accFinish_cases op size
  · simp [hflag] at hset
  · refine ⟨_, e, step_complete hrun hop hwait hsize, he, ?_⟩
    rw [hfin]
    exact ⟨memRead_memWrite _ _ _, fun a ha => read_memWrite_other _ _ _ _ ha, rfl⟩

theorem AccOp.hostKey128_congr {d : Descriptor} {k k' : Key256} (h : ∀ n (hn : n < 16), k[n] = k'[n]) :
    (AccOp.mk d k).hostKey128 = (AccOp.mk d k').hostKey128 := by
  ext i hi
  simp [AccOp.hostKey128, h i hi]

/-- Settles O31: an AES-128 operation reads the key-input region by its first 16 bytes alone. -/
theorem aes128IgnoresUpperKeyBytes : Obligations.Aes128IgnoresUpperKeyBytes := by
  intro c sl d k k' i h
  simp only [accCipher, accKey128, AccOp.hostKey128_congr h]

/-! encrypt-hw from its first step to its reply: R98, R108, R111. -/

/-- The key-input region after HW1 (R101). -/
def State.hwKeyIn (s : State) : Key256 := if s.keys.hostKey then s.keys.material else s.keyIn

/-- The operation that encrypt-hw starts: the descriptor of R81 and the key-input region after HW1 (R112). -/
def State.hwOp (s : State) : AccOp := ⟨s.keys.descriptor s.cfg, s.hwKeyIn⟩

/-- The registers after HW2, CMD apart (R102). -/
def State.hwRegs (s : State) (cmd : Word) : AccRegs :=
  ⟨s.cfg.bufAddr, s.keys.dstWord s.cfg, 16#32, s.keys.paramWord s.cfg, s.keys.slot.setWidth 32, cmd⟩

/-- The event of HW1, if it copies the key (R101). -/
def State.hwKeyEvents (s : State) : List Event := if s.keys.hostKey then [.k s.keys.material] else []

/-- The state before the start write of an encrypt-hw of `p` begun in `s` (R98). -/
def State.hwArmed (s : State) (p : Block) : State :=
  { s with
    trig := true, phase := .execHw .hw4, ram := memWrite s.ram s.cfg.bufAddr p, regs := s.hwRegs s.regs.cmd,
    keyIn := s.hwKeyIn, trace := s.trace ++ s.hwKeyEvents ++ programEvents s.cfg s.keys ++ [.t1] }

/-- HW1 with an idle accelerator (R101). -/
theorem step_hw1 {s : State} (hc : aligned4 s.cfg.keyRegion = true) (h : s.outcome = .running) (hb : s.accBusy = false)
    (hp : s.phase = .execHw .hw1) : step s = .next { s with
      keyIn := s.hwKeyIn, trace := s.trace ++ s.hwKeyEvents, phase := .execHw .hw2 } :=
  (step_execHw h hb hp).trans ((hwKeyCopy_next hc).trans (congrArg _ (hwKeyCopy_eq_next (hwKeyCopy_next hc))))

/-- HW2 with an idle accelerator (R102). -/
theorem step_hw2 {s : State} (hc : s.cfg.registersOk) (h : s.outcome = .running) (hb : s.accBusy = false)
    (hp : s.phase = .execHw .hw2) : step s = .next { s with
      regs := s.hwRegs s.regs.cmd, trace := s.trace ++ programEvents s.cfg s.keys, phase := .execHw .hw3 } :=
  (step_execHw h hb hp).trans (hwProgram_next hc)

/-- HW3 with an idle accelerator (R103). -/
theorem step_hw3 {s : State} (h : s.outcome = .running) (hb : s.accBusy = false) (hp : s.phase = .execHw .hw3) :
    step s = .next { s with trig := true, trace := s.trace ++ [.t1], phase := .execHw .hw4 } :=
  step_execHw h hb hp

/-- HW6 with an idle accelerator (R106). -/
theorem step_hw6 {s : State} (h : s.outcome = .running) (hb : s.accBusy = false) (hp : s.phase = .execHw .hw6) :
    step s = .next { s with trig := false, trace := s.trace ++ [.t0], phase := .execHw .hw7 } :=
  step_execHw h hb hp

/-- HW7 with an idle accelerator (R107). -/
theorem step_hw7 {s : State} (h : s.outcome = .running) (hb : s.accBusy = false) (hp : s.phase = .execHw .hw7) :
    step s = .next { s with trace := s.trace ++ [.rep (s.cfg.statusOk :: s.buf.toList)], phase := .idle } :=
  step_execHw h hb hp

/-- HW1, HW2 and HW3 put the key, the descriptor and the trigger in place (R101 to R103). -/
theorem run_toHwArmed {s : State} (hc : s.cfg.Valid) (h : s.outcome = .running) (hb : s.accBusy = false) (p : Block) :
    core.run 3 ((s.writeBuf p).setPhase (.execHw .hw1)) = .next (s.hwArmed p) := by
  obtain ⟨-, hregs, ⟨hkey, -⟩, -⟩ := hc
  refine Eq.trans (run_succ 2 (step_hw1 hkey h hb rfl)) ?_
  refine Eq.trans (run_succ 1 (step_hw2 hregs h hb rfl)) ?_
  exact run_one (step_hw3 h hb rfl)

/-- The CCU finds the accelerator idle, ends the trigger frame and replies with the buffer (R105 to R107). -/
theorem run_pollToReply {s : State} (hc : s.cfg.registersOk) (h : s.outcome = .running) (hp : s.phase = .poll)
    (hb : s.accBusy = false) :
    core.run 3 s = .next { s with
      trig := false, phase := .idle, draws := s.takeStatus.draws,
      trace := s.trace ++ [.r (s.cfg.accBase + s.cfg.offStatus) s.statusRead, .t0,
        .rep (s.cfg.statusOk :: s.buf.toList)] } := by
  have hw5 := step_poll_next hc h (State.accDue_of_idle hb) hp
  rw [if_neg (by simp [hb]), State.tick_of_idle hb] at hw5
  rw [run_succ 2 hw5]
  refine Eq.trans (run_succ 1 (step_hw6 h hb rfl)) ?_
  refine Eq.trans (run_one (step_hw7 h hb rfl)) (congrArg Host.Outcome.next ?_)
  apply State.ext <;> simp [State.buf]

/-! The result mux: R108, R114, R115. -/

/-- Data RAM after an encrypt-hw of `p` with the output `e`: a redirected output is not stored there (R108). -/
def State.hwRam (s : State) (p e : Block) : Memory :=
  if s.keys.redirect then memWrite s.ram s.cfg.bufAddr p
  else memWrite (memWrite s.ram s.cfg.bufAddr p) s.cfg.bufAddr e

/-- The slots after an encrypt-hw with the output `e` (R108). -/
def State.hwSlots (s : State) (e : Block) : Slots :=
  if s.keys.redirect then s.slots.redirect s.keys.dest.toNat e else s.slots

/-- The block that an encrypt-hw of `p` with the output `e` leaves in the buffer (R108). -/
def State.hwResult (s : State) (p e : Block) : Block := if s.keys.redirect then p else e

theorem State.memRead_hwRam (s : State) (p e : Block) : memRead (s.hwRam p e) s.cfg.bufAddr = s.hwResult p e := by
  unfold State.hwRam State.hwResult
  split <;> exact memRead_memWrite _ _ _

theorem State.hwRam_sameOutside (s : State) (p e : Block) : s.ram.SameOutside s.cfg.bufAddr (s.hwRam p e) := by
  intro a ha
  unfold State.hwRam
  split
  · exact read_memWrite_other _ _ _ _ ha
  · rw [read_memWrite_other _ _ _ _ ha, read_memWrite_other _ _ _ _ ha]

theorem setWidth_slotWord (v : SlotId) : (v.setWidth 32).setWidth 16 = v := by simp

theorem KeyStore.descriptor_keySlot (c : Params) (k : KeyStore) : (k.descriptor c).keySlot = k.slot.toNat :=
  congrArg BitVec.toNat (setWidth_slotWord k.slot)

theorem KeyStore.descriptor_outSlot (c : Params) {k : KeyStore} (h : k.redirect = true) :
    (k.descriptor c).outSlot = k.dest.toNat := by
  rw [Descriptor.outSlot, k.descriptor_dst, k.dstWord_of_redirect c h, setWidth_slotWord]

/-- The AES-128 key of the operation: the first 16 bytes of the key material, or the slot's key (R114). -/
theorem accKey128_hwOp {s : State} (hc : s.cfg.paramFieldsOk) :
    accKey128 s.cfg s.slots s.hwOp =
      if s.keys.slot = 0#16 then some (Vector.ofFn fun i => s.keys.material[i.val])
      else cellsLookup s.slots.keys128 s.keys.slot.toNat := by
  simp only [accKey128, State.hwOp, KeyStore.descriptor_param, flagSet_paramWord_pHostkey hc, KeyStore.descriptor_keySlot,
    s.keys.hostKey_iff]
  split
  case isTrue hs => simp [AccOp.hostKey128, State.hwKeyIn, s.keys.hostKey_iff.2 hs]
  case isFalse => rfl

/-- The AES-256 key of the operation: the key material, or the slot's key (R114). -/
theorem accKey256_hwOp {s : State} (hc : s.cfg.paramFieldsOk) :
    accKey256 s.cfg s.slots s.hwOp =
      if s.keys.slot = 0#16 then some s.keys.material else cellsLookup s.slots.keys256 s.keys.slot.toNat := by
  simp only [accKey256, State.hwOp, KeyStore.descriptor_param, flagSet_paramWord_pHostkey hc, KeyStore.descriptor_keySlot,
    s.keys.hostKey_iff]
  split
  case isTrue hs => simp [State.hwKeyIn, s.keys.hostKey_iff.2 hs]
  case isFalse => rfl

/-- `e` is the ciphertext of `p` under the key of the operation, where that key is defined (R114, R115). -/
def State.HwCiphertext (s : State) (p e : Block) : Prop :=
  ∀ e', accCipher s.cfg s.slots s.hwOp p s.keys.length = some e' → e = e'

/-- The completion of the operation that encrypt-hw started, in a state that holds its block (R115). -/
theorem accFinish_hwOp {s u : State} {p : Block} (hc : s.cfg.paramFieldsOk) (hcfg : u.cfg = s.cfg)
    (hslots : u.slots = s.slots) (hram : u.ram = memWrite s.ram s.cfg.bufAddr p) :
    ∃ e d, s.HwCiphertext p e ∧ u.accFinish s.hwOp s.keys.length = { u with
      ram := s.hwRam p e, slots := s.hwSlots e, accOp := none, draws := d, trace := u.trace ++ [.done] } := by
  obtain ⟨e, d, he, hfin⟩ := u.accFinish_cases s.hwOp s.keys.length
  have hblock : memRead u.ram s.hwOp.desc.src = p := by
    rw [hram]
    exact memRead_memWrite _ _ _
  have hflag : flagSet s.hwOp.desc.param s.cfg.pRedirect = s.keys.redirect := flagSet_paramWord_pRedirect hc s.keys
  rw [hcfg, hslots, hblock] at he
  rw [hcfg, hflag, hslots, hram] at hfin
  refine ⟨e, d, he, ?_⟩
  obtain ⟨hr, hfin⟩ | ⟨hr, hfin⟩ := hfin
  · have hslot : s.hwOp.desc.outSlot = s.keys.dest.toNat := s.keys.descriptor_outSlot s.cfg hr
    rw [hfin, hslot, State.hwRam, State.hwSlots, if_pos hr, if_pos hr, ← hcfg]
  · have hdst : s.hwOp.desc.dst = s.cfg.bufAddr := s.keys.dstWord_of_not_redirect s.cfg hr
    rw [hfin, hdst, State.hwRam, State.hwSlots, if_neg (by simp [hr]), if_neg (by simp [hr]), ← hcfg]

/-! The whole run. -/

/-- The events of an encrypt-hw: the output was `e`, the words of `polls` were read while busy and `last` after (R111). -/
def State.hwEvents (s : State) (p e : Block) (polls : List Word) (last : Word) : List Event :=
  s.hwKeyEvents ++ programEvents s.cfg s.keys ++ [.t1, .w (s.cfg.accBase + s.cfg.offCmd) s.cfg.startValue, .start] ++
    polls.map (.r (s.cfg.accBase + s.cfg.offStatus)) ++
    [.done, .r (s.cfg.accBase + s.cfg.offStatus) last, .t0, .rep (s.cfg.statusOk :: (s.hwResult p e).toList)]

/-- The state after the reply of an encrypt-hw of `p` begun in `s`, with the output `e` (R98, R108). -/
def State.hwReplied (s : State) (p e : Block) (polls : List Word) (last : Word) (d : Draws) : State :=
  { s with
    trig := false, phase := .idle, ram := s.hwRam p e, regs := s.hwRegs s.cfg.startValue, keyIn := s.hwKeyIn, accOp := none,
    accWait := some 0, slots := s.hwSlots e, trace := s.trace ++ s.hwEvents p e polls last, draws := d }

/-- The state of the busy-poll of an encrypt-hw of `p` when the completion is due, the words of `polls` read (R105). -/
def State.hwPolled (s : State) (p : Block) (polls : List Word) (d : Draws) : State :=
  { (s.hwArmed p).started with
    accWait := some 0, draws := d,
    trace := (s.hwArmed p).started.trace ++ polls.map (.r (s.cfg.accBase + s.cfg.offStatus)) }

/-- The start write and the `j` polls before the completion (R104, R105, R112). -/
theorem run_toHwPolled {s : State} {j : Nat} (hc : s.cfg.Valid) (h : s.outcome = .running) (hb : s.accBusy = false)
    (hj : AccelCompletesAfter s j) (p : Block) :
    ∃ polls d, polls.length = j ∧ (∀ v ∈ polls, v.getLsbD 0 = true) ∧
      core.run (j + 1) (s.hwArmed p) = .next (s.hwPolled p polls d) := by
  obtain ⟨-, hregs, -, hfields, -⟩ := hc
  have hstart : step (s.hwArmed p) = .next (s.hwArmed p).started :=
    (step_execHw (s := s.hwArmed p) h hb rfl).trans
      (hwStart_next (s := s.hwArmed p) hregs hb (descriptorOk_descriptor hfields s.keys))
  have hwait : (s.hwArmed p).started.accWait = some j := hj
  obtain ⟨polls, d, hlength, hbusy, hpolls⟩ := run_busyPoll j (s := (s.hwArmed p).started) hregs h rfl rfl
    (fun m hm => by simpa [hwait] using Nat.ne_of_gt hm)
  rw [hwait, Option.map_some, Nat.sub_self] at hpolls
  exact ⟨polls, d, hlength, hbusy, (run_succ j hstart).trans hpolls⟩

/-- The state of the busy-poll of an encrypt-hw of `p` after the completion with the output `e` (R115). -/
def State.hwCompleted (s : State) (p e : Block) (polls : List Word) (d : Draws) : State :=
  { s.hwPolled p polls d with
    ram := s.hwRam p e, slots := s.hwSlots e, accOp := none, trace := (s.hwPolled p polls d).trace ++ [.done] }

theorem step_toHwCompleted {s : State} (hc : s.cfg.paramFieldsOk) (h : s.outcome = .running) (p : Block) (polls : List Word)
    (d : Draws) : ∃ e d', s.HwCiphertext p e ∧ step (s.hwPolled p polls d) = .next (s.hwCompleted p e polls d') := by
  obtain ⟨e, d', he, hfin⟩ := accFinish_hwOp (u := s.hwPolled p polls d) hc rfl rfl rfl
  have hstep := step_complete (s := s.hwPolled p polls d) (op := s.hwOp) h rfl rfl (sizeOf?_paramWord hc s.keys)
  exact ⟨e, d', he, hstep.trans (congrArg _ hfin)⟩

/-- The last poll, the end of the trigger frame and the reply (R105 to R107). -/
theorem run_toHwReplied {s : State} (hc : s.cfg.registersOk) (h : s.outcome = .running) (p e : Block) (polls : List Word)
    (d : Draws) : ∃ last d', last.getLsbD 0 = false ∧
      core.run 3 (s.hwCompleted p e polls d) = .next (s.hwReplied p e polls last d') := by
  refine ⟨(s.hwCompleted p e polls d).statusRead, (s.hwCompleted p e polls d).takeStatus.draws,
    State.getLsbD_zero_statusRead _, ?_⟩
  have hbuf : (s.hwCompleted p e polls d).buf = s.hwResult p e := s.memRead_hwRam p e
  rw [run_pollToReply (s := s.hwCompleted p e polls d) hc h rfl rfl, hbuf]
  refine congrArg Host.Outcome.next ?_
  apply State.ext <;>
    simp [State.hwReplied, State.hwEvents, State.hwCompleted, State.hwPolled, State.started, State.hwArmed, State.hwRegs]

/-- encrypt-hw runs to its reply where the accelerator completes: HW1 to HW3, the start write and `j` polls that read busy, the
completion, and the way from the last poll to the reply (R98, R117). -/
theorem run_encryptHw {s : State} {j : Nat} (hc : s.cfg.Valid) (h : s.outcome = .running) (hb : s.accBusy = false)
    (hj : AccelCompletesAfter s j) (p : Block) :
    ∃ e polls last d, s.HwCiphertext p e ∧ polls.length = j ∧ (∀ v ∈ polls, v.getLsbD 0 = true) ∧
      last.getLsbD 0 = false ∧
      core.run (8 + j) ((s.writeBuf p).setPhase (.execHw .hw1)) = .next (s.hwReplied p e polls last d) := by
  have ⟨_, hregs, _, hfields, _⟩ := hc
  obtain ⟨polls, d, hlength, hbusy, hpolls⟩ := run_toHwPolled hc h hb hj p
  obtain ⟨e, d', he, hdone⟩ := step_toHwCompleted hfields h p polls d
  obtain ⟨last, d'', hlast, hreply⟩ := run_toHwReplied hregs h p e polls d'
  refine ⟨e, polls, last, d'', he, hlength, hbusy, hlast, ?_⟩
  calc core.run (8 + j) ((s.writeBuf p).setPhase (.execHw .hw1))
    _ = core.run (3 + (j + 1 + 4)) ((s.writeBuf p).setPhase (.execHw .hw1)) := by rw [show 8 + j = 3 + (j + 1 + 4) by omega]
    _ = core.run (j + 1 + 4) (s.hwArmed p) := run_add _ (run_toHwArmed hc h hb p)
    _ = core.run 4 (s.hwPolled p polls d) := run_add _ hpolls
    _ = core.run 3 (s.hwCompleted p e polls d') := run_succ 3 hdone
    _ = .next (s.hwReplied p e polls last d'') := hreply

theorem KeyStore.dstWord_eq (c : Params) (k : KeyStore) :
    k.dstWord c = if k.slot ≠ 0#16 ∧ k.dest ≠ 0#16 then k.dest.setWidth 32 else c.bufAddr := by
  simp only [KeyStore.dstWord, k.redirect_iff]

/-- Settles O23: the run to the reply, its events written out. -/
theorem encryptHwTrace : Obligations.EncryptHwTrace := by
  intro s p j hc hrun hb hj
  obtain ⟨e, polls, last, d, -, hlength, hbusy, hlast, hreply⟩ := run_encryptHw hc hrun hb hj p
  refine ⟨_, _, polls, last, s.hwResult p e, rfl, hreply, rfl, rfl, rfl, hlength, hbusy, hlast, ?_⟩
  simp [State.hwReplied, State.hwEvents, State.hwKeyEvents, programEvents, regAddr, ← s.keys.dstWord_eq, s.keys.hostKey_iff]

/-- Settles O24: the run to the reply, its output by the case of the result mux. -/
theorem encryptHwResultMux : Obligations.EncryptHwResultMux := by
  intro s p j hc hrun hb hj
  have ⟨_, _, _, hfields, _⟩ := hc
  obtain ⟨e, polls, last, d, he, -, -, -, hreply⟩ := run_encryptHw hc hrun hb hj p
  refine ⟨_, s.hwReplied p e polls last d, e, rfl, hreply, ?_, ?_, ?_, ?_, ?_, ?_, s.hwRam_sameOutside p e⟩
  · simp only [← s.keys.dstWord_eq, ← s.keys.hostKey_iff]
    rfl
  · exact fun hs hl => he _ (by simp [hl, accCipher, accKey128_hwOp hfields, hs])
  · exact fun hs hl => he _ (by simp [hl, accCipher, accKey256_hwOp hfields, hs])
  · exact fun hs hl k hk => he _ (by simp [hl, accCipher, accKey128_hwOp hfields, hs, hk])
  · exact fun hs hl k hk => he _ (by simp [hl, accCipher, accKey256_hwOp hfields, hs, hk])
  · have hbuf : (s.hwReplied p e polls last d).buf = s.hwResult p e := s.memRead_hwRam p e
    have hlast : (s.hwReplied p e polls last d).trace.getLast? =
        some (.rep (s.cfg.statusOk :: (s.hwResult p e).toList)) := by
      rw [State.hwReplied, State.hwEvents, ← List.append_assoc, List.getLast?_append_of_ne_nil _ (by simp)]
      rfl
    have hslots : (s.hwReplied p e polls last d).slots = s.hwSlots e := rfl
    rw [hbuf, hlast, hslots, State.hwResult, State.hwSlots]
    simp only [← s.keys.redirect_iff]
    split
    case isTrue =>
      obtain ⟨hout, h128, h256⟩ := s.slots.redirect_self s.keys.dest.toNat e
      exact ⟨rfl, rfl, hout, h128, h256, fun d' hd' => s.slots.redirect_other e hd'⟩
    case isFalse => exact ⟨rfl, rfl, rfl⟩

end Sys2Proof.Machine

/-! The trigger line over one step of the machine: which commands drive it, and that its frames alternate (R120 to R125). -/

namespace Sys2Proof.Machine

/-- Of the commands only calib-nop and calib-div drive the line in their first step (R147, R148). -/
theorem exec_changes_trig {i : Instr} {s t : State} (h : exec i s = .next t) (hne : t.trig ≠ s.trig) :
    i.command = .calibNop ∨ i.command = .calibDiv := by
  obtain ⟨k, w, rfl, -⟩ | ⟨slot, dest, b, len, -, -, rfl⟩ | ⟨p, -, rfl⟩ | ⟨p, -, rfl⟩ | ⟨c, n, hi, -⟩ := exec_cases h
  case inr.inr.inr.inr => exact hi.imp (congrArg Instr.command) (congrArg Instr.command)
  all_goals exact absurd rfl hne

/-- Settles O36: a move opens a frame, closes one, or leaves the trigger alone, and the trigger window says which it may do. -/
theorem triggerFramesAlternate : Obligations.TriggerFramesAlternate := by
  intro s t hwindow hframed h
  obtain ⟨-, hmoved⟩ := step_cases h
  exact ⟨hmoved.trigWindow hwindow, hmoved.traceFramed hwindow hframed⟩

/-- Settles O35: the moves that write the line are the asserts and deasserts of the framed commands. -/
theorem onlyFramedCommandsDriveTrigger : Obligations.OnlyFramedCommandsDriveTrigger := by
  intro s t h hne
  obtain ⟨-, hmoved⟩ := step_cases h
  cases hmoved with
  | hwAssert hp => exact .inl hp
  | hwDeassert hp => exact .inr (.inl hp)
  | swAssert p hp => exact .inr (.inr (.inl ⟨p, .inl hp⟩))
  | swDeassert p hp => exact .inr (.inr (.inl ⟨p, .inr hp⟩))
  | calibDeassert c hp => exact .inr (.inr (.inr (.inl ⟨c, hp⟩)))
  | command i t hp he =>
    exact .inr (.inr (.inr (.inr ⟨i, hp, exec_changes_trig he (by simpa using hne)⟩)))
  | _ => exact absurd (by simp) hne

end Sys2Proof.Machine

/-! encrypt-sw, step by step to its reply, and its agreement with encrypt-hw (R128, R130). -/

namespace Sys2Proof.Machine

/-- SW1 with an idle accelerator (R128). -/
theorem step_sw1 {s : State} {p : Block} (h : s.outcome = .running) (hb : s.accBusy = false)
    (hp : s.phase = .execSw p .sw1) :
    step s = .next { s with trig := true, trace := s.trace ++ [.t1], phase := .execSw p .sw2 } :=
  step_execSw h hb hp

/-- SW2 with an idle accelerator (R128). -/
theorem step_sw2 {s : State} {p : Block} (h : s.outcome = .running) (hb : s.accBusy = false)
    (hp : s.phase = .execSw p .sw2) : step s = .next ((s.swEncrypt p).setPhase (.execSw p .sw3)) :=
  step_execSw h hb hp

/-- SW3 with an idle accelerator (R128). -/
theorem step_sw3 {s : State} {p : Block} (h : s.outcome = .running) (hb : s.accBusy = false)
    (hp : s.phase = .execSw p .sw3) :
    step s = .next { s with trig := false, trace := s.trace ++ [.t0], phase := .execSw p .sw4 } :=
  step_execSw h hb hp

/-- SW4 with an idle accelerator (R128). -/
theorem step_sw4 {s : State} {p : Block} (h : s.outcome = .running) (hb : s.accBusy = false)
    (hp : s.phase = .execSw p .sw4) :
    step s = .next { s with trace := s.trace ++ [.rep (s.cfg.statusOk :: s.buf.toList)], phase := .idle } :=
  step_execSw h hb hp

/-- The state in which an encrypt-sw of `p` begun in `s` computes: the block stored, the trigger high (R128). -/
def State.swArmed (s : State) (p : Block) : State :=
  { s with
    trig := true, phase := .execSw p .sw2, ram := memWrite s.ram s.cfg.bufAddr p, trace := s.trace ++ [.t1] }

/-- encrypt-sw runs to its reply: SW1 raises the trigger, SW2 computes, SW3 lowers the trigger, SW4 replies with the buffer
(R128). -/
theorem run_encryptSw {s : State} (h : s.outcome = .running) (hb : s.accBusy = false) (p : Block) :
    core.run 4 ((s.writeBuf p).setPhase (.execSw p .sw1)) = .next { s with
      trig := false, phase := .idle, ram := ((s.swArmed p).swEncrypt p).ram, draws := ((s.swArmed p).swEncrypt p).draws,
      trace := s.trace ++ [.t1, .t0, .rep (s.cfg.statusOk :: ((s.swArmed p).swEncrypt p).buf.toList)] } := by
  refine Eq.trans (run_succ 3 (step_sw1 h hb rfl)) ?_
  have hsw2 : step (s.swArmed p) = .next (((s.swArmed p).swEncrypt p).setPhase (.execSw p .sw3)) := step_sw2 h hb rfl
  refine Eq.trans (run_succ 2 hsw2) ?_
  rw [(s.swArmed p).swEncrypt_eq]
  refine Eq.trans (run_succ 1 (step_sw3 h hb rfl)) ?_
  refine Eq.trans (run_one (step_sw4 h hb rfl)) (congrArg Host.Outcome.next ?_)
  apply State.ext <;> simp [State.swArmed, State.buf]

/-- Settles O33: the run to the reply, its block by the cases of the software encryption. -/
theorem encryptSwCompletes : Obligations.EncryptSwCompletes := by
  intro s p hrun hb
  obtain ⟨e, m, d, henc, hbuf, h256, h128⟩ := (s.swArmed p).swEncrypt_cases p
  have hsame := (s.swArmed p).swEncrypt_sameOutside p
  have hreply := run_encryptSw hrun hb p
  rw [henc, State.buf_eq, hbuf] at hreply
  rw [henc] at hsame
  refine ⟨_, _, e, rfl, hreply, fun hl => ?_, fun hl => (h128 hl).2, hbuf, fun a ha => ?_, rfl⟩
  · exact (h256 hl).1.trans (memRead_memWrite _ _ _)
  · exact (hsame a ha).trans (read_memWrite_other _ _ _ _ ha)

/-- Settles O34: each command's run to its reply gives the ciphertext under the key of its own path, and the two keys agree. -/
theorem hardwareAndSoftwareAgree : Obligations.HardwareAndSoftwareAgree := by
  intro s p k j hc hrun hb hj hslot hlength hsw hkey
  obtain ⟨t, u, e, hexec, hhw, -, he, -, -, -, hmux, -⟩ := encryptHwResultMux s p j hc hrun hb hj
  obtain ⟨t', u', e', hexec', hsw', -, he', -, -, hu'⟩ := encryptSwCompletes s p hrun hb
  have hmaterial : (Vector.ofFn fun i => s.keys.material[i.val] : Block) = k := by
    ext i hi
    simp [hkey i hi]
  rw [if_neg (by simp [hslot])] at hmux
  obtain ⟨-, hlast, -⟩ := hmux
  rw [he hslot hlength, hmaterial] at hlast
  have htrace := congrArg State.trace hu'
  rw [he' hlength k hsw] at htrace
  exact ⟨t, u, t', u', hexec, hhw, hexec', hsw', hlast, by simp [htrace]⟩

end Sys2Proof.Machine

/-! The key schedules: lists grown word by word, each word a function of those before it (R139, R140). -/

namespace Sys2Proof.Machine

section
variable {f : List AesWord → List AesWord} {next : List AesWord → AesWord} (hf : ∀ w, f w = w ++ [next w])
include hf

theorem length_repeat_append (n : Nat) (w : List AesWord) : (Nat.repeat f n w).length = w.length + n := by
  induction n with
  | zero => rfl
  | succ n ih => rw [Nat.repeat, hf, List.length_append, ih, List.length_singleton, Nat.add_assoc]

/-- Growing a list keeps the words it began with. -/
theorem getD_repeat_append_of_lt (n : Nat) (w : List AesWord) (d : AesWord) {j : Nat} (h : j < w.length) :
    (Nat.repeat f n w).getD j d = w.getD j d := by
  induction n with
  | zero => rfl
  | succ n ih =>
    rw [Nat.repeat, hf, List.getD_append _ _ _ _ (by rw [length_repeat_append hf]; omega), ih]

/-- Every later word is the next one after the words before it. -/
theorem getD_repeat_append_of_ge (n : Nat) (w : List AesWord) (d : AesWord) {j : Nat} (h : w.length ≤ j)
    (hj : j < w.length + n) : (Nat.repeat f n w).getD j d = next ((Nat.repeat f n w).take j) := by
  induction n with
  | zero => omega
  | succ n ih =>
    have hlength := length_repeat_append hf n w
    rw [Nat.repeat, hf]
    obtain hlt | rfl : j < w.length + n ∨ j = w.length + n := by omega
    · rw [List.getD_append _ _ _ _ (by omega), List.take_append_of_le_length (by omega), ih hlt]
    · rw [← hlength, List.getD_append_right _ _ _ _ le_rfl, List.take_left]
      simp

end

/-- The word that follows the words `w`: the word `nk` before it xor the transformed previous word (R139, R140). -/
def nextWord (nk : Nat) (transform : Nat → AesWord → AesWord) (w : List AesWord) : AesWord :=
  xorWord (w.getD (w.length - nk) zeroWord) (transform w.length (w.getD (w.length - 1) zeroWord))

theorem nextWord_take {nk j : Nat} (transform : Nat → AesWord → AesWord) {w : List AesWord} (hnk : 0 < nk) (hj : nk ≤ j)
    (hw : j < w.length) :
    nextWord nk transform (w.take j) =
      xorWord (w.getD (j - nk) zeroWord) (transform j (w.getD (j - 1) zeroWord)) := by
  have htake {i : Nat} (hi : i < j) : (w.take j).getD i zeroWord = w.getD i zeroWord := by
    rw [List.getD_eq_getElem?_getD, List.getElem?_take_of_lt hi, List.getD_eq_getElem?_getD]
  rw [nextWord, List.length_take_of_le hw.le, htake (by omega), htake (by omega)]

/-- A schedule grown by `nextWord` from `nk` words follows its recurrence at every later word. -/
theorem getD_repeat_nextWord {f : List AesWord → List AesWord} {nk : Nat} {transform : Nat → AesWord → AesWord}
    (hf : ∀ w, f w = w ++ [nextWord nk transform w]) (hnk : 0 < nk) {w : List AesWord} (hw : w.length = nk) (n : Nat) {j : Nat}
    (h : nk ≤ j) (hj : j < nk + n) :
    (Nat.repeat f n w).getD j zeroWord = xorWord ((Nat.repeat f n w).getD (j - nk) zeroWord)
      (transform j ((Nat.repeat f n w).getD (j - 1) zeroWord)) := by
  subst hw
  rw [← nextWord_take transform hnk h (by rwa [length_repeat_append hf])]
  exact getD_repeat_append_of_ge hf n w _ h hj

/-- The transformation of the previous word before word `j` of an AES-128 schedule (R139). -/
def transform128 (j : Nat) (t : AesWord) : AesWord :=
  if j % 4 = 0 then xorWord (subWord (rotWord t)) (rconWord (j / 4)) else t

/-- The transformation of the previous word before word `j` of an AES-256 schedule (R140). -/
def transform256 (j : Nat) (t : AesWord) : AesWord :=
  if j % 8 = 0 then xorWord (subWord (rotWord t)) (rconWord (j / 8)) else if j % 8 = 4 then subWord t else t

theorem expand128_eq (w : List AesWord) : expand128 w = w ++ [nextWord 4 transform128 w] := rfl

theorem expand256_eq (w : List AesWord) : expand256 w = w ++ [nextWord 8 transform256 w] := rfl

@[simp] theorem length_keyWords128 (k : Block) : (keyWords128 k).length = 4 := List.length_ofFn

@[simp] theorem length_keyWords256 (k : Key256) : (keyWords256 k).length = 8 := List.length_ofFn

@[simp] theorem length_keyExpansion128 (k : Block) : (keyExpansion128 k).length = 44 := by
  rw [keyExpansion128, length_repeat_append expand128_eq, length_keyWords128]

@[simp] theorem length_keyExpansion256 (k : Key256) : (keyExpansion256 k).length = 60 := by
  rw [keyExpansion256, length_repeat_append expand256_eq, length_keyWords256]

theorem keyExpansion128_getD_of_lt (k : Block) {j : Nat} (h : j < 4) :
    (keyExpansion128 k).getD j zeroWord = #v[k[4 * j], k[4 * j + 1], k[4 * j + 2], k[4 * j + 3]] := by
  rw [keyExpansion128, getD_repeat_append_of_lt expand128_eq _ _ _ (by simpa using h)]
  rw [keyWords128, List.getD_eq_getElem _ _ (by simpa using h), List.getElem_ofFn]

theorem keyExpansion256_getD_of_lt (k : Key256) {j : Nat} (h : j < 8) :
    (keyExpansion256 k).getD j zeroWord = #v[k[4 * j], k[4 * j + 1], k[4 * j + 2], k[4 * j + 3]] := by
  rw [keyExpansion256, getD_repeat_append_of_lt expand256_eq _ _ _ (by simpa using h)]
  rw [keyWords256, List.getD_eq_getElem _ _ (by simpa using h), List.getElem_ofFn]

/-- Settles O48: each schedule is its key's words, grown by one word of the recurrence at a time. -/
theorem keySchedulesFollowRecurrence : Obligations.KeySchedulesFollowRecurrence :=
  ⟨fun k => ⟨length_keyExpansion128 k, fun _ h => keyExpansion128_getD_of_lt k h,
      fun _ => getD_repeat_nextWord expand128_eq (by decide) (length_keyWords128 k) 40⟩,
    fun k => ⟨length_keyExpansion256 k, fun _ h => keyExpansion256_getD_of_lt k h,
      fun _ => getD_repeat_nextWord expand256_eq (by decide) (length_keyWords256 k) 52⟩⟩

end Sys2Proof.Machine

/-! The field product as a sum of terms linear in both arguments, and the S-box (R131, R132). -/

namespace Sys2Proof.Machine

theorem xtime_eq (a : Byte) : xtime a = (a <<< 1) ^^^ (if a.getLsbD 7 then 0x1b#8 else 0#8) := by
  have hshift : (a.setWidth 9 <<< 1).setWidth 8 = a <<< 1 := by bv_omega
  rw [xtime, BitVec.setWidth_xor, hshift]
  split <;> rfl

/-- A byte taken where the xor of two bits is set is the sum of that byte taken at either bit. -/
theorem ite_xor (p q : Bool) (x : Byte) :
    (if p ^^ q then x else 0#8) = (if p then x else 0#8) ^^^ (if q then x else 0#8) := by
  cases p <;> cases q <;> simp

theorem xtime_xor (a b : Byte) : xtime (a ^^^ b) = xtime a ^^^ xtime b := by
  simp only [xtime_eq, BitVec.shiftLeft_xor_distrib, BitVec.getLsbD_xor, ite_xor]
  ac_rfl

theorem repeat_xtime_xor (n : Nat) (a b : Byte) :
    Nat.repeat xtime n (a ^^^ b) = Nat.repeat xtime n a ^^^ Nat.repeat xtime n b := by
  induction n with
  | zero => rfl
  | succ n ih => rw [Nat.repeat, ih, xtime_xor, Nat.repeat, Nat.repeat]

/-- The part of the product `gmul a b` that bit `i` of `b` contributes (R131). -/
def gmulTerm (a b : Byte) (i : Nat) : Byte := if b.getLsbD i then Nat.repeat xtime i a else 0#8

theorem gmul_eq_foldl (a b : Byte) : gmul a b = (List.range 8).foldl (fun acc i => acc ^^^ gmulTerm a b i) 0#8 := by
  refine List.foldl_ext _ _ _ fun acc i _ => ?_
  rw [gmulTerm, apply_ite (acc ^^^ ·), BitVec.xor_zero]

theorem gmulTerm_xor_left (a b c : Byte) (i : Nat) : gmulTerm (a ^^^ b) c i = gmulTerm a c i ^^^ gmulTerm b c i := by
  unfold gmulTerm
  split
  · exact repeat_xtime_xor i a b
  · rfl

theorem gmulTerm_xor_right (a b c : Byte) (i : Nat) : gmulTerm a (b ^^^ c) i = gmulTerm a b i ^^^ gmulTerm a c i := by
  simp only [gmulTerm, BitVec.getLsbD_xor, ite_xor]

/-- A sum of termwise sums is the sum of the sums. -/
theorem foldl_xor_distrib {h f g : Nat → Byte} (hfg : ∀ i, h i = f i ^^^ g i) (l : List Nat) (x y : Byte) :
    l.foldl (fun acc i => acc ^^^ h i) (x ^^^ y) =
      l.foldl (fun acc i => acc ^^^ f i) x ^^^ l.foldl (fun acc i => acc ^^^ g i) y := by
  induction l generalizing x y with
  | nil => rfl
  | cons i l ih =>
    have hhead : x ^^^ y ^^^ h i = (x ^^^ f i) ^^^ (y ^^^ g i) := by rw [hfg]; ac_rfl
    simp only [List.foldl_cons, hhead, ih]

theorem gmul_xor_left (a b c : Byte) : gmul (a ^^^ b) c = gmul a c ^^^ gmul b c := by
  simp only [gmul_eq_foldl]
  exact foldl_xor_distrib (gmulTerm_xor_left a b c) _ 0#8 0#8

theorem gmul_xor_right (a b c : Byte) : gmul a (b ^^^ c) = gmul a b ^^^ gmul a c := by
  simp only [gmul_eq_foldl]
  exact foldl_xor_distrib (gmulTerm_xor_right a b c) _ 0#8 0#8

/-- A sum with one term that is not zero is that term. -/
theorem foldl_xor_single (x : Byte) (i n : Nat) :
    (List.range n).foldl (fun acc j => acc ^^^ if i = j then x else 0#8) 0#8 = if i < n then x else 0#8 := by
  induction n with
  | zero => rfl
  | succ n ih =>
    rw [List.range_succ, List.foldl_append, ih]
    obtain hlt | rfl | hgt := Nat.lt_trichotomy i n
    · simp [hlt, hlt.ne, Nat.lt_succ_of_lt hlt]
    · simp
    · simp [hgt.ne', Nat.not_lt.2 hgt.le, Nat.not_lt.2 (Nat.succ_le_of_lt hgt)]

theorem gmul_one_shiftLeft (a : Byte) {i : Nat} (hi : i < 8) : gmul a (1#8 <<< i) = Nat.repeat xtime i a := by
  have hbit (j : Nat) : (1#8 <<< i).getLsbD j = decide (i = j) :=
    (BitVec.getLsbD_twoPow i j).trans (by simp [hi])
  have hterm (j : Nat) : gmulTerm a (1#8 <<< i) j = if i = j then Nat.repeat xtime i a else 0#8 := by
    rw [gmulTerm, hbit]
    by_cases h : i = j <;> simp [h]
  simp only [gmul_eq_foldl, hterm, foldl_xor_single, hi, if_true]

/-- The byte whose affine transform is `a`: the inverse of R132's transform. -/
def affineInverse (a : Byte) : Byte := a.rotateLeft 1 ^^^ a.rotateLeft 3 ^^^ a.rotateLeft 6 ^^^ 0x05#8

theorem affine_affineInverse : ∀ a : Byte, affine (affineInverse a) = a := by decide +kernel

theorem gmul_affineInverse_sbox : ∀ a : Byte, a ≠ 0#8 → gmul a (affineInverse (sbox a)) = 1#8 := by decide +kernel

/-- Settles O47: the byte that the affine transform takes to `sbox a` is the inverse of `a`. -/
theorem sboxIsAffineOfInverse : Obligations.SboxIsAffineOfInverse := by
  intro a
  refine ⟨affineInverse (sbox a), ?_, gmul_affineInverse_sbox a, (affine_affineInverse _).symm⟩
  rintro rfl
  decide

/-- Settles O50: linearity term by term, and one bit set leaves one term. -/
theorem fieldAndScheduleParts : Obligations.FieldAndScheduleParts := by
  refine ⟨gmul_xor_right, fun a _ hi => gmul_one_shiftLeft a hi, xtime_eq, rfl, fun i hi => ?_, fun t => ⟨rfl, ?_⟩⟩
  · obtain ⟨n, rfl⟩ := Nat.exists_eq_add_of_le' hi
    rfl
  · ext i hi
    interval_cases i <;> simp [subWord]

end Sys2Proof.Machine

/-! The rounds of the cipher (R133 to R137, R141 to R143). -/

namespace Sys2Proof.Machine

theorem shiftRows_getElem (s : Block) {r c : Nat} (hr : r < 4) (hc : c < 4) :
    (shiftRows s)[r + 4 * c] = s[r + 4 * ((c + r) % 4)] := by
  have hrow : (r + 4 * c) % 4 = r := by omega
  have hcol : (r + 4 * c) / 4 = c := by omega
  simp only [shiftRows, Vector.getElem_ofFn, hrow, hcol]

/-- Settles O49: the product is linear term by term, and a byte's place gives its row and column. -/
theorem fieldAndRowLaws : Obligations.FieldAndRowLaws :=
  ⟨gmul_xor_left, fun s _ _ hr hc => shiftRows_getElem s hr hc⟩

theorem mixColumns_getElem (s : Block) {r c : Nat} (hr : r < 4) (hc : c < 4) :
    (mixColumns s)[r + 4 * c] = mixColumn s[0 + 4 * c] s[1 + 4 * c] s[2 + 4 * c] s[3 + 4 * c] r := by
  have hrow : (r + 4 * c) % 4 = r := by omega
  have hcol : (r + 4 * c) / 4 = c := by omega
  simp only [mixColumns, Vector.getElem_ofFn, hrow, hcol, Nat.zero_add, Nat.add_comm (4 * c)]

/-- The rounds before the last one are a loop over the round number (R141). -/
theorem cipherRounds_eq_foldl (w : List AesWord) (p : Block) (n : Nat) :
    cipherRounds w p n =
      (List.range' 1 n).foldl (fun s r => addRoundKey w (mixColumns (shiftRows (subBytes s))) r) (addRoundKey w p 0) := by
  induction n with
  | zero => rfl
  | succ n ih => rw [cipherRounds, ih, List.range'_1_concat, List.foldl_concat, Nat.add_comm 1 n]

/-- Settles O51: each step of a round by its definition, and the rounds as the loop of R141. -/
theorem cipherFollowsRounds : Obligations.CipherFollowsRounds := by
  refine ⟨fun s i hi => Vector.getElem_map _ hi, fun s c hc => ?_, fun w s r i hi => Vector.getElem_ofFn hi,
    fun w n p => ?_, fun _ _ => rfl, fun _ _ => rfl⟩
  · have hrow {r : Nat} (hr : r < 4) := mixColumns_getElem s hr hc
    exact ⟨hrow (by decide), hrow (by decide), hrow (by decide), hrow (by decide)⟩
  · rw [cipher, Nat.add_sub_cancel, cipherRounds_eq_foldl]

end Sys2Proof.Machine

/-! The calibration commands: the loop, iteration by iteration, inside one trigger frame (R145 to R148). -/

namespace Sys2Proof.Machine

/-- An iteration of the loop with an idle accelerator (R145). -/
theorem step_loop_of_ne {s : State} {c : CalibKind} {i : Word} (h : s.outcome = .running) (hb : s.accBusy = false)
    (hp : s.phase = .loop c i) (hi : i ≠ 0#32) : step s = .next { s with phase := .loop c (i - 1#32) } :=
  (step_loop h hb hp).trans (if_neg hi)

/-- The way out of the loop with an idle accelerator (R145). -/
theorem step_loop_zero {s : State} {c : CalibKind} (h : s.outcome = .running) (hb : s.accBusy = false)
    (hp : s.phase = .loop c 0#32) : step s = .next { s with phase := .execCalib c .c3 } :=
  step_loop h hb hp

/-- CN3 or CD3 with an idle accelerator (R147, R148). -/
theorem step_calib3 {s : State} {c : CalibKind} (h : s.outcome = .running) (hb : s.accBusy = false)
    (hp : s.phase = .execCalib c .c3) :
    step s = .next { s with trig := false, trace := s.trace ++ [.t0], phase := .execCalib c .c4 } :=
  step_execCalib h hb hp

/-- CN4 or CD4 with an idle accelerator (R147, R148). -/
theorem step_calib4 {s : State} {c : CalibKind} (h : s.outcome = .running) (hb : s.accBusy = false)
    (hp : s.phase = .execCalib c .c4) : step s = .next { s with trace := s.trace ++ ackEvents s.cfg, phase := .idle } :=
  step_execCalib h hb hp

/-- `m` iterations leave `n - m` to run and change nothing else (R145). -/
theorem run_loop {s : State} {c : CalibKind} {n : Word} {m : Nat} (h : s.outcome = .running) (hb : s.accBusy = false)
    (hp : s.phase = .loop c n) (hm : m ≤ n.toNat) :
    core.run m s = .next { s with phase := .loop c (n - BitVec.ofNat 32 m) } := by
  induction m generalizing s n with
  | zero => rw [BitVec.sub_zero, ← hp, run_zero]
  | succ m ih =>
    have hn : n ≠ 0#32 := by
      rintro rfl
      exact Nat.not_succ_le_zero m hm
    have hm' : m ≤ (n - 1#32).toNat := by bv_omega
    refine Eq.trans (run_succ m (step_loop_of_ne h hb hp hn)) ?_
    refine Eq.trans (ih h hb rfl hm') ?_
    rw [BitVec.sub_sub, Nat.add_comm m 1, BitVec.ofNat_add]

/-- From a loop with no iteration left: out of it, the trigger low, the reply (R145, R147, R148). -/
theorem run_loopEnd {s : State} {c : CalibKind} (h : s.outcome = .running) (hb : s.accBusy = false)
    (hp : s.phase = .loop c 0#32) :
    core.run 3 s = .next { s with trig := false, phase := .idle, trace := s.trace ++ [.t0] ++ ackEvents s.cfg } := by
  refine Eq.trans (run_succ 2 (step_loop_zero h hb hp)) ?_
  refine Eq.trans (run_succ 1 (step_calib3 h hb rfl)) ?_
  exact run_one (step_calib4 h hb rfl)

/-- After the first step of a calibration command and `m` iterations the trigger is high and `n - m` are left (R145, R147,
R148). -/
theorem run_calibLoop {s : State} (h : s.outcome = .running) (hb : s.accBusy = false) (c : CalibKind) {n : Word} {m : Nat}
    (hm : m ≤ n.toNat) :
    core.run m (s.assertTrig.setPhase (.loop c n)) = .next { s with
      trig := true, phase := .loop c (n - BitVec.ofNat 32 m), trace := s.trace ++ [.t1] } :=
  run_loop h hb rfl hm

/-- After its first step a calibration command runs all its iterations, ends the trigger frame and replies (R145 to R148). -/
theorem run_calib {s : State} (h : s.outcome = .running) (hb : s.accBusy = false) (c : CalibKind) (n : Word) :
    core.run (n.toNat + 3) (s.assertTrig.setPhase (.loop c n)) = .next { s with
      trig := false, phase := .idle, trace := s.trace ++ [.t1, .t0] ++ ackEvents s.cfg } := by
  refine Eq.trans (run_add 3 (run_calibLoop h hb c le_rfl)) ?_
  rw [BitVec.ofNat_toNat, BitVec.setWidth_eq, BitVec.sub_self]
  refine Eq.trans (run_loopEnd h hb rfl) ?_
  rw [List.append_assoc s.trace, List.singleton_append]

/-- Settles O37: the run of a calibration command, with the loop of calib-nop. -/
theorem calibNopCompletes : Obligations.CalibNopCompletes := fun n _ hrun hb =>
  ⟨_, rfl, fun _ => run_calibLoop hrun hb .nop, run_calib hrun hb .nop n⟩

/-- Settles O38: the run of a calibration command, with the loop of calib-div. -/
theorem calibDivCompletes : Obligations.CalibDivCompletes := fun n _ hrun hb =>
  ⟨_, rfl, fun _ => run_calibLoop hrun hb .div, run_calib hrun hb .div n⟩

end Sys2Proof.Machine

/-! The stops of a run: from a state of the invariant only the head of the service loop stops, and it refuses for one of three
causes (R152, R154, R155, R158, R159). -/

namespace Sys2Proof

theorem opcode_ne_of_commandOf_eq_none {c : Params} {op : Byte} (h : c.commandOf op = none) (cmd : Command) :
    c.opcode cmd ≠ op := by
  simpa using List.find?_eq_none.1 h cmd (mem_allCommands cmd)

end Sys2Proof

namespace Sys2Proof.Machine

/-! The refusals at the head of the service loop: R89, R90, R96, R159. -/

theorem keyLengthOfByte_eq_none_iff (b : Byte) : keyLengthOfByte b = none ↔ b ≠ 0x10#8 ∧ b ≠ 0x20#8 := by
  rw [← Option.not_isSome_iff_eq_none, isSome_keyLengthOfByte]
  simp [lenByteDefined]

/-- The causes for which a frame fails the checks of R159, each with the reason it is refused for. -/
theorem exec_refusal_of_not_accepted {i : Instr} (h : accepted i = false) (s : State) :
    (∃ m, debugMnemonic i.command = some m ∧ exec i s = .refused (.outOfScope m)) ∨
    (∃ slot dest b, i = .selectKeyslot slot dest b ∧ b ≠ 0x10#8 ∧ b ≠ 0x20#8 ∧
      exec i s = .refused (.unspecifiedKeyLength b)) := by
  cases i with
  | memRead | memWrite | memRead32 | call => exact .inl ⟨_, rfl, rfl⟩
  | selectKeyslot slot dest b =>
    have hnone : keyLengthOfByte b = none := by simpa [accepted] using h
    obtain ⟨h16, h32⟩ := (keyLengthOfByte_eq_none_iff b).1 hnone
    exact .inr ⟨slot, dest, b, rfl, h16, h32, exec_selectKeyslot_of_none hnone slot dest s⟩
  | _ => cases h

/-- What stands on the wire of `s` is a cause of R158 for the reason `r`: an unknown opcode, a debug command, or a
select-keyslot whose length byte has no meaning. -/
def RefusalCause (s : State) (r : Refusal) : Prop :=
  (∃ op rest, s.inbox = op :: rest ∧ (∀ cmd, s.cfg.opcode cmd ≠ op) ∧ r = .unknownOpcode op) ∨
  (∃ i rest m, decode s.cfg s.inbox = .frame i rest ∧ debugMnemonic i.command = some m ∧ r = .outOfScope m) ∨
  (∃ slot dest b rest, decode s.cfg s.inbox = .frame (.selectKeyslot slot dest b) rest ∧ b ≠ 0x10#8 ∧ b ≠ 0x20#8 ∧
    r = .unspecifiedKeyLength b)

/-- The head of the service loop goes on, or refuses what the wire holds (R83, R90, R157, R159). -/
theorem serviceLoop_cases (s : State) :
    (∃ t, serviceLoop s = .next t) ∨ ∃ r, serviceLoop s = .refused r ∧ RefusalCause s r := by
  unfold serviceLoop
  cases hi : decode s.cfg s.inbox with
  | incomplete => exact .inl ⟨s, rfl⟩
  | unknownOpcode op =>
    obtain ⟨hnone, rest, hwire⟩ := decode_unknownOpcode_cases hi
    exact .inr ⟨_, rfl, .inl ⟨op, rest, hwire, opcode_ne_of_commandOf_eq_none hnone, rfl⟩⟩
  | frame i rest =>
    dsimp only [takeFrame]
    cases ha : accepted i with
    | true => exact .inl ⟨_, rfl⟩
    | false =>
      refine .inr ?_
      obtain ⟨m, hm, hexec⟩ | ⟨slot, dest, b, rfl, h16, h32, hexec⟩ := exec_refusal_of_not_accepted ha s
      · exact ⟨_, hexec, .inr (.inl ⟨i, rest, m, hi, hm, rfl⟩)⟩
      · exact ⟨_, hexec, .inr (.inr ⟨slot, dest, b, rest, hi, h16, h32, rfl⟩)⟩

/-! Everywhere else a state of the invariant goes on: R82, R112, R119. -/

theorem Programmed.descriptorOk_regs {s : State} (h : Programmed s) (hc : s.cfg.paramFieldsOk)
    (hp : s.phase.programmed = true) : descriptorOk s.cfg s.regs.descriptor = true := by
  rw [h hp]
  exact descriptorOk_descriptor hc s.keys

/-- An operation that the key store describes has one of the two key sizes (R77, R114). -/
theorem LatchedCurrent.sizeOf?_param {s : State} {op : AccOp} (h : LatchedCurrent s) (hc : s.cfg.paramFieldsOk)
    (ho : s.accOp = some op) : sizeOf? s.cfg op.desc.param = some s.keys.length := by
  obtain ⟨hdesc, -⟩ := h op ho
  rw [hdesc, KeyStore.descriptor_param, sizeOf?_paramWord hc]

/-- Each label of encrypt-hw goes on: the accesses are aligned, and the start write finds the accelerator idle and this
command's descriptor in the registers. -/
theorem hwStep_goesOn {s : State} {k : HwStep} (hc : s.cfg.Valid) (hb : s.accBusy = false) (hp : s.phase = .execHw k)
    (hprog : Programmed s) : ∃ t, hwStep k s = .next t := by
  obtain ⟨-, hregs, ⟨hkey, -⟩, hfields, -⟩ := hc
  cases k with
  | hw1 => exact ⟨_, hwKeyCopy_next hkey⟩
  | hw2 => exact ⟨_, hwProgram_next hregs⟩
  | hw4 => exact ⟨_, hwStart_next hregs hb (hprog.descriptorOk_regs hfields (by rw [hp]; rfl))⟩
  | hw3 | hw6 | hw7 => exact ⟨_, rfl⟩

/-- In the busy-poll the machine goes on: by a completion that is due, or by a read of STATUS. -/
theorem step_poll_goesOn {s : State} (hc : s.cfg.Valid) (h : s.outcome = .running) (hp : s.phase = .poll)
    (hl : LatchedCurrent s) : ∃ t, step s = .next t := by
  obtain ⟨-, hregs, -, hfields, -⟩ := hc
  cases hd : s.accDue with
  | false => exact ⟨_, step_poll_next hregs h hd hp⟩
  | true =>
    simp only [State.accDue, State.accBusy, Bool.and_eq_true, Option.isSome_iff_exists, beq_iff_eq] at hd
    obtain ⟨⟨op, ho⟩, hw⟩ := hd
    exact ⟨_, step_complete h ho hw (hl.sizeOf?_param hfields ho)⟩

/-- From a state of the invariant a step is that of the head of the service loop, or goes on. -/
theorem Inv.serviceLoop_or_next {s : State} (h : Inv s) :
    (s.phase = .idle ∧ step s = serviceLoop s) ∨ ∃ t, step s = .next t := by
  obtain ⟨hvalid, hrun, -, -, -, -, hone, hprog, -, hlatched, haccepted⟩ := h
  have hidle (hp : s.phase ≠ .poll) : s.accBusy = false := by simp [State.accBusy, hone.accOp_eq_none hp]
  cases hp : s.phase with
  | idle => exact .inl ⟨rfl, by simp [step_idle_acc hrun (hidle (by simp [hp])), ccuStep, hp]⟩
  | poll => exact .inr (step_poll_goesOn hvalid hrun hp hlatched)
  | execFirst i =>
    rw [step_execFirst hrun (hidle (by simp [hp])) hp]
    exact .inr (exec_of_accepted ((Phase.checked_iff _).1 haccepted i hp) s)
  | execHw k =>
    have hb := hidle (by simp [hp])
    rw [step_execHw hrun hb hp]
    exact .inr (hwStep_goesOn hvalid hb hp hprog)
  | execSw p k =>
    rw [step_execSw hrun (hidle (by simp [hp])) hp]
    cases k <;> exact .inr ⟨_, rfl⟩
  | execCalib c k =>
    rw [step_execCalib hrun (hidle (by simp [hp])) hp]
    cases k <;> exact .inr ⟨_, rfl⟩
  | loop c i =>
    rw [step_loop hrun (hidle (by simp [hp])) hp, loopStep]
    split <;> exact .inr ⟨_, rfl⟩

/-- Settles O15: the head of the service loop is the one place that stops, and it refuses for the cause on the wire. -/
theorem onlySpecifiedStops : Obligations.OnlySpecifiedStops := by
  intro s hinv
  obtain ⟨hp, hstep⟩ | ⟨t, ht⟩ := hinv.serviceLoop_or_next
  · rw [hstep]
    obtain ⟨t, ht⟩ | ⟨r, hr, hcause⟩ := serviceLoop_cases s
    · simp [ht]
    · rw [hr]
      refine ⟨nofun, ?_⟩
      rintro _ ⟨⟩
      exact ⟨hp, hcause⟩
  · simp [ht]

end Sys2Proof.Machine

/-! Power-on (10_state.md section 7, 70_reset_and_hazards.md section 1). -/

namespace Sys2Proof.Machine

/-- Settles O46: `State.reset` writes each of these values out; the slots hold the same parameters `cfg` names, whichever
`Config.params` picks, and the accelerator is not busy because no operation is in flight. -/
theorem powerOnState : Obligations.PowerOnState :=
  have hnoOperation : State.reset.accOp = none := rfl
  have hnotBusy : State.reset.accBusy = false := by rw [State.accBusy, hnoOperation, Option.isSome_none]
  ⟨rfl, rfl, rfl, rfl, rfl, hnotBusy, hnoOperation, rfl, rfl, rfl⟩

end Sys2Proof.Machine
